-- ==== Sys2Proof/Word.lean ====
section
/-! DEFINITION. The word types of the block, each at the one width the spec gives it. -/

namespace Sys2Proof

/-- A byte, 8 bits (`20_memory.md` rule R40). -/
abbrev Byte := BitVec 8

/-- A checksum value, target or nonce: `CRC_WIDTH` = 16 bits (`00_scope.md` rule R5). -/
abbrev Half := BitVec 16

/-- An immediate, a result value, a box address or a tier value: 32 bits (`30_encoding.md` rules R70, R73). -/
abbrev Word := BitVec 32

/-- A scrambler or descrambler register: `SR_WIDTH` = 23 bits (`10_state.md` rule R16). -/
abbrev ShiftReg := BitVec 23

/-- One bit of a stream as it stands in a command (`42_scrambler.md` rules R152, R154). -/
abbrev Bit := BitVec 1

/-- A command or response word: 40 bits (`30_encoding.md` rules R70, R73). -/
abbrev Word40 := BitVec 40

end Sys2Proof
end

