-- ==== Sys2Proof/Config.lean ====
section
/-! DEFINITION. The constants of `00_scope.md` rule R5, the decided parameters of rule R6 and the open
parameters of rule R7. The open ones have no body: nothing can be proved of their values. -/

namespace Sys2Proof

/-! ### Constants the source fixes (R5) -/

/-- `CRC_INIT`: "Initial state is the fixed value `0xFFFF`" (R5). -/
def Config.crcInit : Half := 0xFFFF

/-- `TARGET_DEFAULT` (R5), the reset value of `TARGET` (R13). -/
def Config.targetDefault : Half := 0x1D0F

/-- `HDR_LEN`, segment header length in bytes (R5). -/
def Config.hdrLen : Nat := 16

/-- `TRL_LEN`, segment trailer length in bytes (R5). -/
def Config.trlLen : Nat := 2

/-- `MAX_SEG`, largest legal segment length and length prefix (R5). -/
def Config.maxSeg : Nat := 1024

/-- `SENTINEL`, the length prefix that ends a container (R5). -/
def Config.sentinel : Half := 0x1A1A

/-- `CPM_EOF`, the CP/M end-of-file byte (R5). -/
def Config.cpmEof : Byte := 0x1A

/-- `CMD_SET_TIERS`, the command byte of the set-tiers packet (R5). -/
def Config.cmdSetTiers : Byte := 0x81

/-- `TIER_AND`, tier mode selector, AND mode (R5). -/
def Config.tierAnd : Word := 0x00000000

/-- `TIER_XOR`, tier mode selector, XOR mode (R5). -/
def Config.tierXor : Word := 0x80000000

/-- `TIER_AND_MAX`, full-access AND mask (R5). -/
def Config.tierAndMax : Word := 0x7FFFFFFF

/-- `ADDR_BROADCAST`, the broadcast box address (R5). -/
def Config.addrBroadcast : Word := 0xFFFFFFFF

/-- The number of candidate nonces, `2^(8 * NONCE_BYTES)` with `NONCE_BYTES` = 2 (R5, R102). -/
def Config.nonceCount : Nat := 65536

/-! ### Parameters this spec decides (R6; assumption log entry 13) -/

/-- `POLY`, generator polynomial, low 16 coefficients (R6, decision D1). -/
def Config.poly : Half := 0x1021

/-- `XOROUT`, the finishing transform is an exclusive or with it (R6, decision D2). -/
def Config.xorOut : Half := 0xFFFF

/-- `MIN_SEG` = `HDR_LEN + TRL_LEN`, smallest legal segment length (R6, decision D11). -/
def Config.minSeg : Nat := 18

/-! ### Open parameters (R7): constants with no body -/

/-- `SEED_S`, the value of `SCR` after reset (R7, R16; log entry 5). -/
opaque Config.seedS : ShiftReg

/-- `SEED_D`, the value of `DSC` after reset (R7, R17; log entry 5). -/
opaque Config.seedD : ShiftReg

/-- A byte sequence of any length, from which the container image of `State.reset` is cut (log entry 3). -/
opaque Config.srcBytes : List Byte

/-- `SRC` as `State.reset` has it: any image with `SRC_LEN < 2^32` (R7, R41; log entry 3). -/
def Config.src : List Byte := Config.srcBytes.take (2 ^ 32 - 1)

/-- The two values of `WIRE_BIT_ORDER` (R7). -/
inductive WireBitOrder where
  | msbFirst
  | lsbFirst
  deriving DecidableEq, Repr, Inhabited

/-- The two values of `TIER_XOR_COMPARE` (R7). -/
inductive TierXorCompare where
  | low31
  | all32
  deriving DecidableEq, Repr, Inhabited

/-- `WIRE_BIT_ORDER` (R7, decision D24); read by no operation (log entry 14). -/
opaque Config.wireBitOrder : WireBitOrder

/-- `FLAG_BYTE` (R7, decision D24); read by no operation (log entry 14). -/
opaque Config.flagByte : Byte

/-- `TIER_XOR_COMPARE` (R7, decision D23); read by no operation (log entry 14). -/
opaque Config.tierXorCompare : TierXorCompare

end Sys2Proof
end

