-- ==== Sys2Proof/Machine/State.lean ====
section
/-! DEFINITION. The state of the block (`10_state.md` rule R10) as plain data, the reasons a step can stop,
and the state after reset (rule R30). -/

namespace Sys2Proof.Machine

/-- A byte memory: (address, byte) pairs in one canonical form (see `Memory.wf` in Machine/Ops.lean). -/
abbrev Memory := List Host.Cell

/-- The reader's status `RST` (`10_state.md` rule R18). Values 6 and 7 are never produced, so the type does
not contain them (`93_implementation_defined.md` U35; assumption log entry 9). -/
inductive Rst where
  | closed
  | run
  | tEos
  | tTooLarge
  | tTrunc
  | tTooShort
  deriving DecidableEq, Repr

/-- The response codes, all of them (`60_exceptions.md` rule R201). -/
inductive Code where
  | ok
  | eos
  | cksumMismatch
  | errIllegalCmd
  | errTooLarge
  | errTruncated
  | errTooShort
  | errNoData
  | errPrecondition
  | errNotOpen
  deriving DecidableEq, Repr

/-- One response, `code/val` (`30_encoding.md` rule R73). -/
structure Response where
  code : Code
  val : Word
  deriving DecidableEq, Repr

/-- What reaches the block from outside: a command word (`30_encoding.md` rule R70) or reset
(`70_reset_and_hazards.md` rule R230). -/
inductive Input where
  | command (w : Word40)
  | reset
  deriving DecidableEq, Repr

/-- `FLAGS`: three independent one-bit flags (`10_state.md` rule R21). -/
structure Flags where
  segv : Bool
  ckok : Bool
  hdrv : Bool
  deriving DecidableEq, Repr

/-- The state: the registers and memories of `10_state.md` rule R10, then what the model adds: the image
`SRC` (a parameter in the spec, R28; log entry 3), what the host is still to send (log entry 1) and the
responses given so far (log entry 2). -/
structure State where
  /-- `CRC` (R12). -/
  crc : Half
  /-- `TARGET` (R13). -/
  target : Half
  /-- `NCNT`, 17 bits (R14). -/
  ncnt : BitVec 17
  /-- `NONCE` (R14). -/
  nonce : Half
  /-- `HITMAP` (R15): the addresses whose bit is 1, rising (log entry 11). -/
  hitmap : List Nat
  /-- `SCR` (R16). -/
  scr : ShiftReg
  /-- `DSC` (R17). -/
  dsc : ShiftReg
  /-- `RST` (R18). -/
  rst : Rst
  /-- `CUR` (R19). -/
  cur : Word
  /-- `SLEN`, 11 bits (R20). -/
  slen : BitVec 11
  /-- `FLAGS` (R21). -/
  flags : Flags
  /-- `SCRC` (R22). -/
  scrc : Half
  /-- `SEG`, 1024 bytes (R23). -/
  seg : Memory
  /-- `BOXADDR` (R25). -/
  boxaddr : Word
  /-- `TIERVAL` (R25). -/
  tierval : Word
  /-- `HDR`, 16 bytes (R26). -/
  hdr : Memory
  /-- `HCRC` (R26). -/
  hcrc : Half
  /-- `SRC`, the container image (R28, R41); no operation writes it. -/
  src : List Byte
  /-- What the host is still to send, oldest first. -/
  inputs : List Input
  /-- The responses given so far, newest first. -/
  responses : List Response
  deriving DecidableEq, Repr

/-- Why a step could fault: never. Every command word has a defined response and an error is a response
(`30_encoding.md` rule R75, `60_exceptions.md` rule R200), so there is no reason to name (log entry 20). -/
inductive Fault : Type
  deriving DecidableEq, Repr

/-- Why an instruction could have no meaning. -/
inductive Refusal where
  /-- Raised only by an arm of exec whose instruction has no meaning yet (safe); no arm is such an arm. -/
  | notModelled (mnemonic : String)
  deriving DecidableEq, Repr

/-- The state right after reset over a given image and given seeds: the table of `10_state.md` rule R30.
`SEG` and `HDR` hold nothing listed (log entry 7). -/
def State.resetWith (image : List Byte) (seedS seedD : ShiftReg) : State where
  crc := 0xFFFF
  target := 0x1D0F
  ncnt := 0
  nonce := 0
  hitmap := []
  scr := seedS
  dsc := seedD
  rst := .closed
  cur := 0
  slen := 0
  flags := { segv := false, ckok := false, hdrv := false }
  scrc := 0
  seg := []
  boxaddr := 0
  tierval := 0
  hdr := []
  hcrc := 0
  src := image
  inputs := []
  responses := []

/-- The machine right after reset (R30, R230): the image and the seeds are the open parameters of R7. -/
def State.reset : State := State.resetWith Config.src Config.seedS Config.seedD

end Sys2Proof.Machine
end

