-- ==== Sys2Proof/Machine/Flags.lean ====
section
/-! DEFINITION. The flags `SEGV`, `CKOK`, `HDRV` (`10_state.md` rule R21): how each operation that writes them
sets them, and their reading as the register `FLAGS`. -/

namespace Sys2Proof.Machine

/-- A segment has been yielded; `CKOK` says whether its trailer matched (R21, `41_reader.md` rule R130).
`HDRV` stays. -/
def Flags.yielded (f : Flags) (matched : Bool) : Flags := { f with segv := true, ckok := matched }

/-- No segment is held: `SEGV` and `CKOK` cleared, `HDRV` untouched (R21, R121). -/
def Flags.noSegment (f : Flags) : Flags := { f with segv := false, ckok := false }

/-- A header has been built: `HDRV` set (R21, `43_builder.md` rule R174). -/
def Flags.built (f : Flags) : Flags := { f with hdrv := true }

/-- `FLAGS` as `RDREG` returns it: bit 0 `SEGV`, bit 1 `CKOK`, bit 2 `HDRV` (R10, `44_system.md` rule R190). -/
def Flags.bits (f : Flags) : BitVec 3 :=
  BitVec.ofBool f.hdrv ++ BitVec.ofBool f.ckok ++ BitVec.ofBool f.segv

end Sys2Proof.Machine
end

