-- ==== Sys2Proof/Machine/Ops.lean ====
section
/-! DEFINITION. The named operations over the byte memories, the response port, the inputs, the two forms of
an exception (a refusal and a terminal outcome) and the reset event. -/

namespace Sys2Proof.Machine

/-! ### Byte memories (`20_memory.md` rule R40) -/

/-- What a byte that no entry lists reads as (assumption log entry 7). -/
def Memory.unlisted : Byte := 0x00

/-- One byte of a memory. -/
def Memory.read : Memory → Nat → Byte
  | [], _ => Memory.unlisted
  | (a, v) :: m, at_ => if a = at_ then v else Memory.read m at_

/-- Puts an entry in front, unless its byte is what an unlisted address reads as. -/
def Memory.cons (a : Nat) (v : Byte) (m : Memory) : Memory :=
  if v = Memory.unlisted then m else (a, v) :: m

/-- Writes one byte, keeping the canonical form. -/
def Memory.write : Memory → Nat → Byte → Memory
  | [], a, v => Memory.cons a v []
  | (a', v') :: m, a, v =>
    if a < a' then Memory.cons a v ((a', v') :: m)
    else if a = a' then Memory.cons a v m
    else (a', v') :: Memory.write m a v

/-- `MemWrite(space, addr, n, v)` (`00_scope.md` section 6): bytes in order, lowest address first. -/
def Memory.writeBytes : Memory → Nat → List Byte → Memory
  | m, _, [] => m
  | m, a, b :: bs => Memory.write (Memory.writeBytes m (a + 1) bs) a b

/-- `MemRead(space, addr, n)` (`00_scope.md` section 6). -/
def Memory.readBytes (m : Memory) (a : Nat) : Nat → List Byte
  | 0 => []
  | n + 1 => Memory.read m a :: Memory.readBytes m (a + 1) n

/-- The canonical form from an address on: addresses strictly rising and below `size`, no entry equal to
what an unlisted address reads as. -/
def Memory.wfFrom (size : Nat) : Nat → Memory → Bool
  | _, [] => true
  | lo, (a, v) :: m => lo ≤ a && a < size && v != Memory.unlisted && Memory.wfFrom size (a + 1) m

/-- The canonical form of a memory of `size` bytes. -/
def Memory.wf (size : Nat) (m : Memory) : Bool := Memory.wfFrom size 0 m

/-- The size of `SEG` in bytes (R23, R40). -/
def segSize : Nat := 1024

/-- The size of `HDR` in bytes (R26, R40). -/
def hdrSize : Nat := 16

/-! ### The image `SRC` (`20_memory.md` rule R41) -/

/-- `SRC_LEN`. -/
def State.srcLen (s : State) : Nat := s.src.length

/-- `SRC_LEN - CUR`, the bytes still to be consumed (0 past the end; log entry 12). -/
def State.avail (s : State) : Nat := s.srcLen - s.cur.toNat

/-- `CUR` advanced by `n` (R19; log entry 12). -/
def State.advance (s : State) (n : Nat) : State := { s with cur := s.cur + BitVec.ofNat 32 n }

/-- `SRC[CUR + i]`; only read where `CUR + i < SRC_LEN`. -/
def State.srcByte (s : State) (i : Nat) : Byte := s.src.getD (s.cur.toNat + i) 0

/-- `MemRead(SRC, CUR, n)`. -/
def State.srcBytes (s : State) (n : Nat) : List Byte := (s.src.drop s.cur.toNat).take n

/-! ### Responses (`30_encoding.md` rule R73, `60_exceptions.md` rule R201) -/

/-- The value of a response code (R201). -/
def Code.byte : Code → Byte
  | .ok => 0x00
  | .eos => 0x01
  | .cksumMismatch => 0x02
  | .errIllegalCmd => 0x80
  | .errTooLarge => 0x81
  | .errTruncated => 0x82
  | .errTooShort => 0x83
  | .errNoData => 0x84
  | .errPrecondition => 0x85
  | .errNotOpen => 0x86

/-- `code[7]`: refused or ended in an error (R73). -/
def Code.isError (c : Code) : Bool := c.byte.msb

/-- The response word `{code, val}` (R73). -/
def Response.word (r : Response) : Word40 := r.code.byte ++ r.val

/-- The response is given; nothing else changes. -/
def State.answer (s : State) (code : Code) (val : Word) : State :=
  { s with responses := { code := code, val := val } :: s.responses }

/-- `respond(code, val)` (`00_scope.md` section 6): the operation ends with this response. -/
def respond (code : Code) (val : Word) (s : State) : Host.Outcome State Fault Refusal :=
  .next (s.answer code val)

/-! ### Exceptions: there is no trap, an exception is an error response (`60_exceptions.md` rule R200) -/

/-- `raise <Name>`: the command is refused, nothing else changes (R200, R216). -/
def raise (code : Code) (s : State) : Host.Outcome State Fault Refusal := respond code 0 s

/-- The reader ended in status `t`: no segment is held (`41_reader.md` rule R122, `90_conflicts.md` C8). -/
def State.terminated (s : State) (t : Rst) : State :=
  { s with rst := t, slen := 0, flags := s.flags.noSegment }

/-- `terminate(t, code)` (`41_reader.md` rule R122): "what "trap entry" amounts to is the write of `RST`" (R216).
There is no return from it but `RDOPEN` or reset (R213). -/
def terminate (t : Rst) (code : Code) (s : State) : Host.Outcome State Fault Refusal :=
  respond code 0 (s.terminated t)

/-! ### Inputs and reset -/

/-- The oldest input, taken off the list. -/
def State.takeInput (s : State) : Option (Input × State) :=
  match s.inputs with
  | [] => none
  | x :: rest => some (x, { s with inputs := rest })

/-- The reset event (`70_reset_and_hazards.md` rule R230): every piece of state at the value of R30; the
image, the inputs still to come and the responses already given are outside the block and stay (log entry 18). -/
def State.resetEvent (s : State) : State :=
  { State.resetWith s.src Config.seedS Config.seedD with inputs := s.inputs, responses := s.responses }

/-- An input with the command of this word is put where the next step takes its input. -/
def State.offer (s : State) (w : Word40) : State := { s with inputs := .command w :: s.inputs }

end Sys2Proof.Machine
end

