-- ==== Sys2Proof/Machine/Crc.lean ====
section
/-! DEFINITION. The checksum functions of `40_checksum.md` rules R91 to R96 and the collision search of rule
R102. `POLY` is an argument, called `g`; the operations give it `Config.poly`. -/

namespace Sys2Proof.Machine

/-- The initial running value, `init() = 0xFFFF` (R90, R95). -/
def crcInit : Half := Config.crcInit

/-- One shift of `reduce8` (R91): multiplication by `x` modulo `G`. -/
def reduceStep (g v : Half) : Half := if v.msb then (v <<< 1) ^^^ g else v <<< 1

/-- `n` shifts. -/
def reduceTimes (g : Half) : Nat → Half → Half
  | 0, v => v
  | n + 1, v => reduceTimes g n (reduceStep g v)

/-- `reduce8(v)`, `(v * x^8) mod G` (R91). -/
def reduce8 (g v : Half) : Half := reduceTimes g 8 v

/-- `T(b) = reduce8(b << 8)` (R91). -/
def crcT (g : Half) (b : Byte) : Half := reduce8 g (b ++ (0 : Byte))

/-- `LT[n] = T(n)`, the low-nibble table (R91). -/
def crcLT (g : Half) (n : BitVec 4) : Half := crcT g ((0 : BitVec 4) ++ n)

/-- `HT[n] = T(n << 4)`, the high-nibble table (R91). -/
def crcHT (g : Half) (n : BitVec 4) : Half := crcT g (n ++ (0 : BitVec 4))

/-- The 32-word `ROM`: `ROM[a] = LT[a]`, `ROM[16 + a] = HT[a]` (R92). -/
def crcRom (g : Half) (a : BitVec 5) : Half :=
  if a.msb then crcHT g (a.setWidth 4) else crcLT g (a.setWidth 4)

/-- `lo_addr = idx AND 0x0F` (R92). -/
def romLo (idx : Byte) : BitVec 5 := (idx &&& 0x0F).setWidth 5

/-- `hi_addr = (idx >> 4) OR 0x10` (R92). -/
def romHi (idx : Byte) : BitVec 5 := ((idx >>> 4) ||| 0x10).setWidth 5

/-- The high half of a 16-bit value. -/
def hiByte (v : Half) : Byte := v.extractLsb' 8 8

/-- The low half of a 16-bit value. -/
def loByte (v : Half) : Byte := v.extractLsb' 0 8

/-- `crc_update(c, b)` (R93). -/
def crcUpdate (g c : Half) (b : Byte) : Half :=
  let idx := hiByte c ^^^ b
  let t := crcRom g (romLo idx) ^^^ crcRom g (romHi idx)
  (loByte c ^^^ hiByte t) ++ loByte t

/-- The bit-serial form of `crc_update` (R94). -/
def crcUpdateSerial (g c : Half) (b : Byte) : Half := reduceTimes g 8 (c ^^^ (b ++ (0 : Byte)))

/-- `crc_bytes(c, bytes)`: `crc_update` over a byte sequence, first byte first (R95). -/
def crcBytes (g : Half) : Half → List Byte → Half
  | c, [] => c
  | c, b :: rest => crcBytes g (crcUpdate g c b) rest

/-- `crc_finish(c) = c XOR XOROUT` (R96). -/
def crcFinish (c : Half) : Half := c ^^^ Config.xorOut

/-- The two bytes of a 16-bit value, high byte first: a trailer or a nonce on the wire (R46, R48). -/
def bytesBE (v : Half) : List Byte := [hiByte v, loByte v]

/-- Whether nonce `n` brings the running value `c` to `target` (R102); the unfinished value is compared. -/
def isHit (g c target : Half) (n : Nat) : Bool :=
  crcBytes g c (bytesBE (BitVec.ofNat 16 n)) == target

/-- `solve(s, target)` (R102): all hits among the 65536 nonces, lowest first. -/
@[irreducible] def solve (g c target : Half) : List Nat :=
  (List.range Config.nonceCount).filter (isHit g c target)

/-- `mulx16(v) = reduce8(reduce8(v))` (R105). -/
def mulx16 (g v : Half) : Half := reduce8 g (reduce8 g v)

/-- The record of a search: `HITMAP`, `NCNT` and `NONCE` are written together (`10_state.md` rule R14,
`40_checksum.md` rule R103): the hits, their number, and the lowest or 0 when there is none. -/
def State.recordHits (s : State) (hits : List Nat) : State :=
  { s with
    hitmap := hits
    ncnt := BitVec.ofNat 17 hits.length
    nonce := BitVec.ofNat 16 (hits.headD 0) }

/-- The hits of a search from a running value against the register `TARGET` (R103, `43_builder.md` R174). -/
def State.hitsFrom (s : State) (c : Half) : List Nat := solve Config.poly c s.target

/-- That search, recorded. -/
def State.search (s : State) (c : Half) : State := s.recordHits (s.hitsFrom c)

/-- `HITMAP[n]` (`10_state.md` rule R15). -/
def State.hitBit (s : State) (n : Nat) : Bool := s.hitmap.contains n

end Sys2Proof.Machine
end

