-- ==== Sys2Proof/Syntax.lean ====
section
/-! DEFINITION. The operation set: one constructor per row of spec/opcode_table.json
(`30_encoding.md` rule R72), each operand exactly as wide as its field `imm[k-1:0]` (rule R71). -/

namespace Sys2Proof

/-- The 19 operations of `30_encoding.md` rule R72. -/
inductive Instr where
  /-- `CKINIT`, `op = 0x10`, R97. -/
  | ckinit
  /-- `CKUPD b`, `op = 0x11`, R98. -/
  | ckupd (b : Byte)
  /-- `CKFIN`, `op = 0x12`, R99. -/
  | ckfin
  /-- `CKLD v`, `op = 0x13`, R100. -/
  | ckld (v : Half)
  /-- `CKTGT v`, `op = 0x14`, R101. -/
  | cktgt (v : Half)
  /-- `CKSOLVE`, `op = 0x15`, R103. -/
  | cksolve
  /-- `CKHIT n`, `op = 0x16`, R104. -/
  | ckhit (n : Half)
  /-- `SCRLD v`, `op = 0x20`, R155. -/
  | scrld (v : ShiftReg)
  /-- `SCRBIT b`, `op = 0x21`, R152. -/
  | scrbit (b : Bit)
  /-- `DSCLD v`, `op = 0x28`, R156. -/
  | dscld (v : ShiftReg)
  /-- `DSCBIT b`, `op = 0x29`, R154. -/
  | dscbit (b : Bit)
  /-- `RDOPEN`, `op = 0x30`, R121. -/
  | rdopen
  /-- `RDNEXT`, `op = 0x31`, R122. -/
  | rdnext
  /-- `SGLDB off`, `op = 0x32`, R132. -/
  | sgldb (off : BitVec 10)
  /-- `CPADDR a`, `op = 0x40`, R171. -/
  | cpaddr (a : Word)
  /-- `CPTIER t`, `op = 0x41`, R172. -/
  | cptier (t : Word)
  /-- `CPBUILD`, `op = 0x42`, R174. -/
  | cpbuild
  /-- `CPLDB i`, `op = 0x43`, R175. -/
  | cpldb (i : BitVec 4)
  /-- `RDREG r`, `op = 0xF0`, R190. -/
  | rdreg (r : Byte)
  deriving DecidableEq, Repr

end Sys2Proof
end

