-- ==== Sys2Proof/WellFormed.lean ====
section
/-! DEFINITION. Which instructions are well formed. Every operand field is exactly as wide as its type, so
the one check left is the register number of `RDREG`: "or when it is `RDREG` with a register number not in
the table of `10_state.md` rule R10" (`30_encoding.md` rule R75). -/

namespace Sys2Proof

/-- The register numbers of `10_state.md` rule R10: `0x00..0x0A`, `0x10..0x19`, `0x20..0x22`; every other
number is unassigned (`44_system.md` rule R191). -/
def regAssigned (r : Byte) : Bool :=
  r ≤ 0x0A || (0x10 ≤ r && r ≤ 0x19) || (0x20 ≤ r && r ≤ 0x22)

/-- The well-formed instructions: no operand names a register that does not exist. -/
def Instr.wellFormed : Instr → Bool
  | .ckinit => true
  | .ckupd _ => true
  | .ckfin => true
  | .ckld _ => true
  | .cktgt _ => true
  | .cksolve => true
  | .ckhit _ => true
  | .scrld _ => true
  | .scrbit _ => true
  | .dscld _ => true
  | .dscbit _ => true
  | .rdopen => true
  | .rdnext => true
  | .sgldb _ => true
  | .cpaddr _ => true
  | .cptier _ => true
  | .cpbuild => true
  | .cpldb _ => true
  | .rdreg r => regAssigned r

end Sys2Proof
end

