-- ==== Sys2Proof/Machine/Operands.lean ====
section
/-! DEFINITION. Operands and the values read through them: the 3-bit reading of `RST`, the field views of
`20_memory.md` rule R44, and the register map of `10_state.md` rule R10 as `RDREG` reads it. -/

namespace Sys2Proof.Machine

/-- The value of `RST` (`10_state.md` rule R18). -/
def Rst.bits : Rst → BitVec 3
  | .closed => 0
  | .run => 1
  | .tEos => 2
  | .tTooLarge => 3
  | .tTrunc => 4
  | .tTooShort => 5

/-- `SEG[i]`. -/
def State.segByte (s : State) (i : Nat) : Byte := s.seg.read i

/-- `HDR[i]`. -/
def State.hdrByte (s : State) (i : Nat) : Byte := s.hdr.read i

/-! ### Field views (R44) -/

/-- `F_IMAGE`, big-endian. -/
def State.fImage (s : State) : BitVec 24 := s.segByte 0 ++ s.segByte 1 ++ s.segByte 2

/-- `F_SEGLSB`. -/
def State.fSegLsb (s : State) : Byte := s.segByte 3

/-- `F_OWNER`. -/
def State.fOwner (s : State) : Byte := s.segByte 4

/-- `F_TIER`, big-endian. -/
def State.fTier (s : State) : Word := s.segByte 5 ++ s.segByte 6 ++ s.segByte 7 ++ s.segByte 8

/-- `F_RSVD`, first byte high, for reading only. -/
def State.fRsvd (s : State) : Half := s.segByte 9 ++ s.segByte 10

/-- `F_FLAGS`. -/
def State.fFlags (s : State) : Byte := s.segByte 11

/-- `F_SEGNUM`, little-endian. -/
def State.fSegNum (s : State) : Half := s.segByte 13 ++ s.segByte 12

/-- `F_OFFSET`, big-endian. -/
def State.fOffset (s : State) : Half := s.segByte 14 ++ s.segByte 15

/-- `F_DLEN = SLEN - 18`. -/
def State.fDlen (s : State) : BitVec 11 := s.slen - 18

/-- `F_TRAILER = {SEG[SLEN-2], SEG[SLEN-1]}`. -/
def State.fTrailer (s : State) : Half := s.segByte (s.slen.toNat - 2) ++ s.segByte (s.slen.toNat - 1)

/-! ### The register map as `RDREG` reads it (R10, `44_system.md` rule R190) -/

/-- Registers that hold nothing while `SEGV == 0`: `SCRC` and the field views (R190). -/
def regNeedsSegment (r : Byte) : Bool := r == 0x0A || (0x10 ≤ r && r ≤ 0x19)

/-- The register that holds nothing while `HDRV == 0`: `HCRC` (R190). -/
def regNeedsHeader (r : Byte) : Bool := r == 0x22

/-- The value of a register, zero-extended to 32 bits; `none` for an unassigned number (R190, R191). -/
def State.readReg (s : State) (r : Byte) : Option Word :=
  match r with
  | 0x00 => some (s.crc.setWidth 32)
  | 0x01 => some (s.target.setWidth 32)
  | 0x02 => some (s.ncnt.setWidth 32)
  | 0x03 => some (s.nonce.setWidth 32)
  | 0x04 => some (s.scr.setWidth 32)
  | 0x05 => some (s.dsc.setWidth 32)
  | 0x06 => some (s.rst.bits.setWidth 32)
  | 0x07 => some s.cur
  | 0x08 => some (s.slen.setWidth 32)
  | 0x09 => some (s.flags.bits.setWidth 32)
  | 0x0A => some (s.scrc.setWidth 32)
  | 0x10 => some (s.fImage.setWidth 32)
  | 0x11 => some (s.fSegLsb.setWidth 32)
  | 0x12 => some (s.fOwner.setWidth 32)
  | 0x13 => some s.fTier
  | 0x14 => some (s.fRsvd.setWidth 32)
  | 0x15 => some (s.fFlags.setWidth 32)
  | 0x16 => some (s.fSegNum.setWidth 32)
  | 0x17 => some (s.fOffset.setWidth 32)
  | 0x18 => some (s.fDlen.setWidth 32)
  | 0x19 => some (s.fTrailer.setWidth 32)
  | 0x20 => some s.boxaddr
  | 0x21 => some s.tierval
  | 0x22 => some (s.hcrc.setWidth 32)
  | _ => none

end Sys2Proof.Machine
end

