-- ==== Sys2Proof/Machine/Builder.lean ====
section
/-! DEFINITION. The meanings of the CP unit (`43_builder.md`), the optional fourth unit (`00_scope.md` rule R3). -/

namespace Sys2Proof.Machine

/-- `CPADDR a` (R171): every value is stored; the precondition is `CPBUILD`'s. -/
def execCpaddr (a : Word) (s : State) : Host.Outcome State Fault Refusal :=
  respond .ok a { s with boxaddr := a }

/-- `CPTIER t` (R172). -/
def execCptier (t : Word) (s : State) : Host.Outcome State Fault Refusal :=
  respond .ok t { s with tierval := t }

/-- The four bytes of a 32-bit value, most significant first (`20_memory.md` rule R47). -/
def wordBytesBE (v : Word) : List Byte :=
  [v.extractLsb' 24 8, v.extractLsb' 16 8, v.extractLsb' 8 8, v.extractLsb' 0 8]

/-- The control-packet header (R173, `20_memory.md` rule R47): address, `0x81`, tier, seven zero bytes. -/
def headerBytes (addr tier : Word) : List Byte :=
  wordBytesBE addr ++ [Config.cmdSetTiers] ++ wordBytesBE tier ++ List.replicate 7 (0 : Byte)

/-- `HDR` as a successful `CPBUILD` writes it (R174). -/
def State.builtHdr (s : State) : Memory := s.hdr.writeBytes 0 (headerBytes s.boxaddr s.tierval)

/-- `HCRC` as a successful `CPBUILD` leaves it: "a running checksum over those 16 bytes", unfinished (R174). -/
def State.builtHcrc (s : State) : Half := crcBytes Config.poly crcInit (s.builtHdr.readBytes 0 Config.hdrLen)

/-- `HDR`, `HCRC` and `HDRV` after a successful `CPBUILD`, before the search (R174). -/
def State.buildHeader (s : State) : State :=
  { s with hdr := s.builtHdr, hcrc := s.builtHcrc, flags := s.flags.built }

/-- The whole effect of a successful `CPBUILD` (R174): the header, then the search from `HCRC`. -/
def State.buildPacket (s : State) : State := s.buildHeader.search s.builtHcrc

/-- `CPBUILD` (R174): with `BOXADDR[31] == 0` the precondition fails and nothing is written. -/
def execCpbuild (s : State) : Host.Outcome State Fault Refusal :=
  if s.boxaddr.msb then respond .ok (s.buildPacket.ncnt.setWidth 32) s.buildPacket
  else raise .errPrecondition s

/-- `CPLDB i` (R175): one byte of the built header; refused before the first successful `CPBUILD`. -/
def execCpldb (i : BitVec 4) (s : State) : Host.Outcome State Fault Refusal :=
  if s.flags.hdrv then respond .ok ((s.hdrByte i.toNat).setWidth 32) s else raise .errNoData s

end Sys2Proof.Machine
end

