-- ==== Sys2Proof/Machine/Checksum.lean ====
section
/-! DEFINITION. The meanings of the CK unit (`40_checksum.md` sections 4 and 5). -/

namespace Sys2Proof.Machine

/-- `CRC <- v`, answered with the new value (R97 to R100). -/
def State.setCrc (s : State) (v : Half) : Host.Outcome State Fault Refusal :=
  respond .ok (v.setWidth 32) { s with crc := v }

/-- `CKINIT` (R97). -/
def execCkinit (s : State) : Host.Outcome State Fault Refusal := s.setCrc crcInit

/-- `CKUPD b` (R98). -/
def execCkupd (b : Byte) (s : State) : Host.Outcome State Fault Refusal :=
  s.setCrc (crcUpdate Config.poly s.crc b)

/-- `CKFIN` (R99): the finished value is written back. -/
def execCkfin (s : State) : Host.Outcome State Fault Refusal := s.setCrc (crcFinish s.crc)

/-- `CKLD v` (R100). -/
def execCkld (v : Half) (s : State) : Host.Outcome State Fault Refusal := s.setCrc v

/-- `CKTGT v` (R101): the results of the last search stay. -/
def execCktgt (v : Half) (s : State) : Host.Outcome State Fault Refusal :=
  respond .ok (v.setWidth 32) { s with target := v }

/-- `CKSOLVE` (R103): `CRC` is not changed; no hit is no error. -/
def execCksolve (s : State) : Host.Outcome State Fault Refusal :=
  respond .ok ((s.search s.crc).ncnt.setWidth 32) (s.search s.crc)

/-- `CKHIT n` (R104): one bit of the last search's result. -/
def execCkhit (n : Half) (s : State) : Host.Outcome State Fault Refusal :=
  respond .ok (if s.hitBit n.toNat then 1 else 0) s

end Sys2Proof.Machine
end

