-- ==== Sys2Proof/Machine/Reader.lean ====
section
/-! DEFINITION. The meanings of the RD unit (`41_reader.md`): `RDOPEN`, `RDNEXT`, `SGLDB`. `RDNEXT` is cut into
its phases: prefix, range checks, body, validation (R134). -/

namespace Sys2Proof.Machine

/-- A new reader at offset 0; `SEG`, `SCRC`, `HDRV` untouched (R121). -/
def State.opened (s : State) : State :=
  { s with cur := 0, rst := .run, slen := 0, flags := s.flags.noSegment }

/-- `RDOPEN` (R121), legal in every value of `RST`. -/
def execRdopen (s : State) : Host.Outcome State Fault Refusal := respond .ok 0 s.opened

/-- The response of a yield: `OK` when the trailer matched, else `CKSUM_MISMATCH` (R130). -/
def Code.ofMatch (matched : Bool) : Code := if matched then .ok else .cksumMismatch

/-- `SEG` after a yield of `len` bytes, `CUR` standing at the body (R129). -/
def State.yieldedSeg (s : State) (len : Nat) : Memory := s.seg.writeBytes 0 (s.srcBytes len)

/-- `SCRC` after a yield: the reader's own checksum of header and data (R130). -/
def State.yieldedScrc (s : State) (len : Nat) : Half :=
  crcBytes Config.poly crcInit ((s.yieldedSeg len).readBytes 0 (len - Config.trlLen))

/-- The trailer of the yielded segment, `{SEG[len-2], SEG[len-1]}` (R130). -/
def State.yieldedTrailer (s : State) (len : Nat) : Half :=
  (s.yieldedSeg len).read (len - 2) ++ (s.yieldedSeg len).read (len - 1)

/-- `CKOK` after a yield (R130). -/
def State.yieldedMatch (s : State) (len : Nat) : Bool :=
  crcFinish (s.yieldedScrc len) == s.yieldedTrailer len

/-- The state after a yield of `len` bytes, `CUR` standing at the body (R129, R130). -/
def State.yieldSegment (s : State) (len : Nat) : State :=
  { s.advance len with
    seg := s.yieldedSeg len
    slen := BitVec.ofNat 11 len
    scrc := s.yieldedScrc len
    flags := s.flags.yielded (s.yieldedMatch len) }

/-- The whole body is available: the segment is yielded whatever its checksum (R129, R130). -/
def rdYield (len : Nat) (s : State) : Host.Outcome State Fault Refusal :=
  respond (Code.ofMatch (s.yieldedMatch len)) (BitVec.ofNat 32 len) (s.yieldSegment len)

/-- A short body: end of stream when its first byte is there and is `0x1A`, else truncated (R128). -/
def rdShortBody (s : State) : Host.Outcome State Fault Refusal :=
  if 1 ≤ s.avail ∧ s.srcByte 0 = Config.cpmEof then terminate .tEos .eos s
  else terminate .tTrunc .errTruncated s

/-- The body phase of a length in range: short (R128) or complete (R129). -/
def rdBody (len : Nat) (s : State) : Host.Outcome State Fault Refusal :=
  if s.avail < len then rdShortBody s else rdYield len s

/-- The range checks of a consumed prefix, in the order of R126 and R127: sentinel, too large, too short. -/
def rdCheckLength (len : Half) (s : State) : Host.Outcome State Fault Refusal :=
  if len = Config.sentinel then terminate .tEos .eos s
  else if Config.maxSeg < len.toNat then terminate .tTooLarge .errTooLarge s
  else if len.toNat < Config.minSeg then terminate .tTooShort .errTooShort s
  else rdBody len.toNat s

/-- The prefix at `CUR`, little-endian: `SRC[CUR] + 256 * SRC[CUR+1]` (R126). -/
def State.lengthPrefix (s : State) : Half := s.srcByte 1 ++ s.srcByte 0

/-- One byte left where a prefix is due (R125). -/
def rdLoneByte (s : State) : Host.Outcome State Fault Refusal :=
  if s.srcByte 0 = Config.cpmEof then terminate .tEos .eos s else terminate .tTrunc .errTruncated s

/-- The prefix phase of a running reader (R124 to R126). -/
def rdRun (s : State) : Host.Outcome State Fault Refusal :=
  if s.avail = 0 then terminate .tEos .eos s
  else if s.avail = 1 then rdLoneByte s
  else rdCheckLength s.lengthPrefix (s.advance 2)

/-- `RDNEXT` (R122): refused with no reader open, the same code again after a terminal outcome (`code_of`,
R123), else the next segment. -/
def execRdnext (s : State) : Host.Outcome State Fault Refusal :=
  match s.rst with
  | .closed => raise .errNotOpen s
  | .tEos => respond .eos 0 s
  | .tTooLarge => respond .errTooLarge 0 s
  | .tTrunc => respond .errTruncated 0 s
  | .tTooShort => respond .errTooShort 0 s
  | .run => rdRun s

/-- `SGLDB off` (R132): one byte of the yielded segment; refused with no segment or outside it. -/
def execSgldb (off : BitVec 10) (s : State) : Host.Outcome State Fault Refusal :=
  if s.flags.segv = false ∨ s.slen.toNat ≤ off.toNat then raise .errNoData s
  else respond .ok ((s.segByte off.toNat).setWidth 32) s

end Sys2Proof.Machine
end

