-- ==== Sys2Proof/Machine/Scrambler.lean ====
section
/-! DEFINITION. The bit functions and the meanings of the SC unit (`42_scrambler.md`). -/

namespace Sys2Proof.Machine

/-- Bit `i` of a shift register, as one bit. -/
def tap (s : ShiftReg) (i : Nat) : Bit := s.extractLsb' i 1

/-- The register shifted left by one with `b` as its new low bit; the old bit 22 is dropped (R151, R153). -/
def shiftIn (s : ShiftReg) (b : Bit) : ShiftReg := (s <<< 1) ||| b.setWidth 23

/-- `scr_step(s, b)` (R151): taps 2 and 19 before the shift, inverted, the output shifted in. -/
def scrStep (s : ShiftReg) (b : Bit) : ShiftReg × Bit :=
  let out := b ^^^ 1 ^^^ tap s 2 ^^^ tap s 19
  (shiftIn s out, out)

/-- `dsc_step(s, b)` (R153): the received bit is shifted in, then taps 3 and 20 of the shifted register
(`90_conflicts.md` C1; assumption log entry 16). -/
def dscStep (s : ShiftReg) (b : Bit) : ShiftReg × Bit :=
  let s' := shiftIn s b
  (s', b ^^^ 1 ^^^ tap s' 3 ^^^ tap s' 20)

/-- The literal reading of the source's descramble step that `90_conflicts.md` C1 rejects (taps 3 and 20 before
the shift). No operation uses it; it is here to show that it does not undo `scrStep` (R153, decision D9). -/
def dscStepLiteral (s : ShiftReg) (b : Bit) : ShiftReg × Bit :=
  (shiftIn s b, b ^^^ 1 ^^^ tap s 3 ^^^ tap s 20)

/-- A step function over a bit sequence, first bit first: the last register and the output bits. -/
def runBits (f : ShiftReg → Bit → ShiftReg × Bit) : ShiftReg → List Bit → ShiftReg × List Bit
  | s, [] => (s, [])
  | s, b :: bs => ((runBits f (f s b).1 bs).1, (f s b).2 :: (runBits f (f s b).1 bs).2)

/-- `SCRLD v` (R155). -/
def execScrld (v : ShiftReg) (s : State) : Host.Outcome State Fault Refusal :=
  respond .ok (v.setWidth 32) { s with scr := v }

/-- `SCRBIT b` (R152). -/
def execScrbit (b : Bit) (s : State) : Host.Outcome State Fault Refusal :=
  respond .ok ((scrStep s.scr b).2.setWidth 32) { s with scr := (scrStep s.scr b).1 }

/-- `DSCLD v` (R156). -/
def execDscld (v : ShiftReg) (s : State) : Host.Outcome State Fault Refusal :=
  respond .ok (v.setWidth 32) { s with dsc := v }

/-- `DSCBIT b` (R154). -/
def execDscbit (b : Bit) (s : State) : Host.Outcome State Fault Refusal :=
  respond .ok ((dscStep s.dsc b).2.setWidth 32) { s with dsc := (dscStep s.dsc b).1 }

end Sys2Proof.Machine
end

