-- ==== Sys2Proof/Machine/System.lean ====
section
/-! DEFINITION. The meaning of `RDREG` (`44_system.md`) and the answer to an illegal command word. -/

namespace Sys2Proof.Machine

/-- `RDREG r` (R190, R191): an unassigned number is an illegal command, tested before absent data (R215). -/
def execRdreg (r : Byte) (s : State) : Host.Outcome State Fault Refusal :=
  match s.readReg r with
  | none => raise .errIllegalCmd s
  | some v =>
    if regNeedsSegment r ∧ s.flags.segv = false then raise .errNoData s
    else if regNeedsHeader r ∧ s.flags.hdrv = false then raise .errNoData s
    else respond .ok v s

/-- A word that is no command: `ERR_ILLEGAL_CMD/00000000`, no state changes (`30_encoding.md` rule R75,
`60_exceptions.md` rule R204). -/
def State.illegalCommand (s : State) : State := s.answer .errIllegalCmd 0

end Sys2Proof.Machine
end

