-- ==== Sys2Proof/Machine/Dispatch.lean ====
section
/-! DEFINITION. One arm per instruction. -/

namespace Sys2Proof.Machine

def exec (i : Instr) (s : State) : Host.Outcome State Fault Refusal :=
  match i with
  | .ckinit => Sys2Proof.Machine.execCkinit s
  | .ckupd b => Sys2Proof.Machine.execCkupd b s
  | .ckfin => Sys2Proof.Machine.execCkfin s
  | .ckld v => Sys2Proof.Machine.execCkld v s
  | .cktgt v => Sys2Proof.Machine.execCktgt v s
  | .cksolve => Sys2Proof.Machine.execCksolve s
  | .ckhit n => Sys2Proof.Machine.execCkhit n s
  | .scrld v => Sys2Proof.Machine.execScrld v s
  | .scrbit b => Sys2Proof.Machine.execScrbit b s
  | .dscld v => Sys2Proof.Machine.execDscld v s
  | .dscbit b => Sys2Proof.Machine.execDscbit b s
  | .rdopen => Sys2Proof.Machine.execRdopen s
  | .rdnext => Sys2Proof.Machine.execRdnext s
  | .sgldb off => Sys2Proof.Machine.execSgldb off s
  | .cpaddr a => Sys2Proof.Machine.execCpaddr a s
  | .cptier t => Sys2Proof.Machine.execCptier t s
  | .cpbuild => Sys2Proof.Machine.execCpbuild s
  | .cpldb off => Sys2Proof.Machine.execCpldb off s
  | .rdreg r => Sys2Proof.Machine.execRdreg r s

end Sys2Proof.Machine
end

