-- ==== Sys2Proof/Decode.lean ====
section
/-! DEFINITION. The decoder, total on all `2^40` command words, in the order of `30_encoding.md` rule R79
(first `op`, then the reserved bits); after it the encoder, and the opcode table's rows. -/

namespace Sys2Proof

/-- Why a word is no command: both are answered `ERR_ILLEGAL_CMD` (`30_encoding.md` rule R75). -/
inductive DecodeError where
  /-- `op` is none of the 19 values of rule R72. -/
  | unknownOp (op : Byte)
  /-- A reserved immediate bit is not zero (rule R71). -/
  | reservedBits (op : Byte) (imm : Word)
  deriving DecidableEq, Repr

/-- Bits 39:32 of a command word (R70). -/
def opOf (w : Word40) : Byte := w.extractLsb' 32 8

/-- Bits 31:0 of a command word (R70). -/
def immOf (w : Word40) : Word := w.extractLsb' 0 32

/-- A command word from its two fields (R70). -/
def commandWord (op : Byte) (imm : Word) : Word40 := op ++ imm

/-- The operand field `imm[k-1:0]`, refused when a bit of `imm[31:k]` is set (R71). -/
def operandField (k : Nat) (op : Byte) (imm : Word) (mk : BitVec k → Instr) : Except DecodeError Instr :=
  if imm >>> k = 0 then .ok (mk (imm.setWidth k)) else .error (.reservedBits op imm)

/-- An operation without operand: `k = 0`, the whole `imm` must be zero (R71). -/
def noOperand (op : Byte) (imm : Word) (i : Instr) : Except DecodeError Instr :=
  operandField 0 op imm (fun _ => i)

/-- The opcode map of R72 over the two fields of a command. -/
def decodeFields (op : Byte) (imm : Word) : Except DecodeError Instr :=
  match op with
  | 0x10 => noOperand op imm .ckinit
  | 0x11 => operandField 8 op imm .ckupd
  | 0x12 => noOperand op imm .ckfin
  | 0x13 => operandField 16 op imm .ckld
  | 0x14 => operandField 16 op imm .cktgt
  | 0x15 => noOperand op imm .cksolve
  | 0x16 => operandField 16 op imm .ckhit
  | 0x20 => operandField 23 op imm .scrld
  | 0x21 => operandField 1 op imm .scrbit
  | 0x28 => operandField 23 op imm .dscld
  | 0x29 => operandField 1 op imm .dscbit
  | 0x30 => noOperand op imm .rdopen
  | 0x31 => noOperand op imm .rdnext
  | 0x32 => operandField 10 op imm .sgldb
  | 0x40 => operandField 32 op imm .cpaddr
  | 0x41 => operandField 32 op imm .cptier
  | 0x42 => noOperand op imm .cpbuild
  | 0x43 => operandField 4 op imm .cpldb
  | 0xF0 => operandField 8 op imm .rdreg
  | _ => .error (.unknownOp op)

/-- The decoder (R70, R79); it reads no state. -/
def decode (w : Word40) : Except DecodeError Instr := decodeFields (opOf w) (immOf w)

/-! ### The encoder, from the same map -/

/-- The operation code of an instruction (R72). -/
def Instr.op : Instr → Byte
  | .ckinit => 0x10
  | .ckupd _ => 0x11
  | .ckfin => 0x12
  | .ckld _ => 0x13
  | .cktgt _ => 0x14
  | .cksolve => 0x15
  | .ckhit _ => 0x16
  | .scrld _ => 0x20
  | .scrbit _ => 0x21
  | .dscld _ => 0x28
  | .dscbit _ => 0x29
  | .rdopen => 0x30
  | .rdnext => 0x31
  | .sgldb _ => 0x32
  | .cpaddr _ => 0x40
  | .cptier _ => 0x41
  | .cpbuild => 0x42
  | .cpldb _ => 0x43
  | .rdreg _ => 0xF0

/-- The immediate of an instruction: its operand, unsigned, reserved bits zero (R71). -/
def Instr.imm : Instr → Word
  | .ckinit | .ckfin | .cksolve | .rdopen | .rdnext | .cpbuild => 0
  | .ckupd b => b.setWidth 32
  | .ckld v => v.setWidth 32
  | .cktgt v => v.setWidth 32
  | .ckhit n => n.setWidth 32
  | .scrld v => v.setWidth 32
  | .scrbit b => b.setWidth 32
  | .dscld v => v.setWidth 32
  | .dscbit b => b.setWidth 32
  | .sgldb off => off.setWidth 32
  | .cpaddr a => a
  | .cptier t => t
  | .cpldb i => i.setWidth 32
  | .rdreg r => r.setWidth 32

/-- The command word of an instruction (R70, R72). -/
def encode (i : Instr) : Word40 := commandWord i.op i.imm

/-- The command word of a table row's bits: the table numbers the bits of the one 40-bit word, `op` in bits
39:32, so `w` is that word; bits above `nbits` are zero. -/
def tableWord (nbits w : Nat) : Word40 := BitVec.ofNat 40 (w % 2 ^ nbits)

/-- The instruction the decoder reads from a table row's word. -/
def decodeTableWord (nbits w : Nat) : Option Instr :=
  match decode (tableWord nbits w) with
  | .ok i => some i
  | .error _ => none

/-! ### The rows of spec/opcode_table.json -/

/-- A row's `match` and `mask` over the 40-bit word. -/
structure OpRow where
  pattern : Word40
  mask : Word40
  deriving DecidableEq, Repr

/-- `match` and `mask` of an instruction's row in spec/opcode_table.json. -/
def Instr.row : Instr → OpRow
  | .ckinit => ⟨0x1000000000, 0xFFFFFFFFFF⟩
  | .ckupd _ => ⟨0x1100000000, 0xFFFFFFFF00⟩
  | .ckfin => ⟨0x1200000000, 0xFFFFFFFFFF⟩
  | .ckld _ => ⟨0x1300000000, 0xFFFFFF0000⟩
  | .cktgt _ => ⟨0x1400000000, 0xFFFFFF0000⟩
  | .cksolve => ⟨0x1500000000, 0xFFFFFFFFFF⟩
  | .ckhit _ => ⟨0x1600000000, 0xFFFFFF0000⟩
  | .scrld _ => ⟨0x2000000000, 0xFFFF800000⟩
  | .scrbit _ => ⟨0x2100000000, 0xFFFFFFFFFE⟩
  | .dscld _ => ⟨0x2800000000, 0xFFFF800000⟩
  | .dscbit _ => ⟨0x2900000000, 0xFFFFFFFFFE⟩
  | .rdopen => ⟨0x3000000000, 0xFFFFFFFFFF⟩
  | .rdnext => ⟨0x3100000000, 0xFFFFFFFFFF⟩
  | .sgldb _ => ⟨0x3200000000, 0xFFFFFFFC00⟩
  | .cpaddr _ => ⟨0x4000000000, 0xFF00000000⟩
  | .cptier _ => ⟨0x4100000000, 0xFF00000000⟩
  | .cpbuild => ⟨0x4200000000, 0xFFFFFFFFFF⟩
  | .cpldb _ => ⟨0x4300000000, 0xFFFFFFFFF0⟩
  | .rdreg _ => ⟨0xF000000000, 0xFFFFFFFF00⟩

end Sys2Proof
end

