-- ==== Sys2Proof/Machine/Fetch.lean ====
section
/-! DEFINITION. What the next step is to do, chosen by the oldest input (`00_scope.md` rule R8). -/

namespace Sys2Proof.Machine

/-- What a step finds at the command port. -/
inductive Fetched where
  /-- No operation runs; the step ends in this state. -/
  | settled (t : State)
  /-- This operation runs, in this state (the command taken off the inputs). -/
  | run (i : Instr) (s : State)
  deriving DecidableEq, Repr

/-- With no input the block holds its state and does nothing (`60_exceptions.md` rule R217); reset puts the
state of R30 (`70_reset_and_hazards.md` rule R230); a command word is decoded, and one that is no command is
answered `ERR_ILLEGAL_CMD` (`30_encoding.md` rules R75, R79). -/
def fetch (s : State) : Fetched :=
  match s.takeInput with
  | none => .settled s
  | some (.reset, s') => .settled s'.resetEvent
  | some (.command w, s') =>
    match decode w with
    | .ok i => .run i s'
    | .error _ => .settled s'.illegalCommand

end Sys2Proof.Machine
end

