-- ==== Sys2Proof/Machine/Step.lean ====
section
/-! DEFINITION. One step of the block: it takes the oldest input and performs it completely (`00_scope.md` rule
R8). -/

namespace Sys2Proof.Machine

/-- One step (R8). -/
def step (s : State) : Host.Outcome State Fault Refusal :=
  match fetch s with
  | .settled t => .next t
  | .run i s' => exec i s'

/-- The state in which the next step takes the command of this table word: it is offered before every other
input (assumption log entry 4). -/
def State.withFetchWord (s : State) (nbits w : Nat) : State := s.offer (tableWord nbits w)

end Sys2Proof.Machine
end

