-- ==== Sys2Proof/Machine/Assembler.lean ====
section
/-! DEFINITION. The assembler syntax of `30_encoding.md` rule R77 and the pseudo-instructions of rule R78. The
block does not read it: it is how a host writes command words. What R77 leaves open (white space, commas,
letter case of digits) is fixed here; assumption log entry 24. -/

namespace Sys2Proof.Machine

/-! ### The host's items: a command word, or the one pseudo-instruction that depends on responses -/

/-- One item of a host program: a command word, or `WARMUP n` (R78). -/
inductive HostItem where
  | send (w : Word40)
  | warmup (n : Nat)
  deriving DecidableEq, Repr

/-- The `val` of the last response, 0 before the first. -/
def State.lastVal (s : State) : Word :=
  match s.responses with
  | [] => 0
  | r :: _ => r.val

/-- `SCRBIT b`, then `DSCBIT o` with `o` the `val` of that response (R78 `WARMUP`, for any bit `b`). -/
def hostPassBit (b : Bit) (s : State) : Host.Outcome State Fault Refusal :=
  match execScrbit b s with
  | .next t => execDscbit (t.lastVal.setWidth 1) t
  | other => other

/-- `hostPassBit` over a bit sequence, first bit first. -/
def hostPassBits : List Bit → State → Host.Outcome State Fault Refusal
  | [], s => .next s
  | b :: bs, s =>
    match hostPassBit b s with
    | .next t => hostPassBits bs t
    | other => other

/-- `WARMUP n` (R78): `n` zero bits through the scrambler, its outputs through the descrambler. -/
def hostWarmup (n : Nat) (s : State) : Host.Outcome State Fault Refusal :=
  hostPassBits (List.replicate n 0) s

/-- The expansion of `CKBUF b0, ..., bn` (R78). -/
def ckbuf (bytes : List Byte) : List Instr := bytes.map .ckupd

/-- The expansion of `CKSUM b0, ..., bn` (R78). -/
def cksum (bytes : List Byte) : List Instr := [.ckinit] ++ ckbuf bytes ++ [.ckfin]

/-- The expansion of `SCRBITS` (R78). -/
def scrbits (bits : List Bit) : List Instr := bits.map .scrbit

/-- The expansion of `DSCBITS` (R78). -/
def dscbits (bits : List Bit) : List Instr := bits.map .dscbit

/-- The expansion of `BUILD a, t` (R78). -/
def buildSeq (a t : Word) : List Instr := [.cpaddr a, .cptier t, .cpbuild]

/-! ### Lexing a line -/

/-- The line before its comment (R77: a `;` starts a comment to the end of the line). -/
def dropComment (line : List Char) : List Char := line.takeWhile (· ≠ ';')

/-- What separates tokens: space, tab, comma. -/
def isSeparator (c : Char) : Bool := c = ' ' || c = '\t' || c = ','

/-- The tokens of a line; `acc` is the token being read, reversed. -/
def tokens : List Char → List Char → List (List Char)
  | acc, [] => if acc.isEmpty then [] else [acc.reverse]
  | acc, c :: cs =>
    if isSeparator c then (if acc.isEmpty then tokens [] cs else acc.reverse :: tokens [] cs)
    else tokens (c :: acc) cs

/-- All of a list, or nothing. -/
def allSome {α β : Type} (f : α → Option β) : List α → Option (List β)
  | [] => some []
  | x :: xs =>
    match f x, allSome f xs with
    | some y, some ys => some (y :: ys)
    | _, _ => none

/-- The digits of the notations of `00_scope.md` section 6, each at the place of its value. -/
def hexDigits : List Char := "0123456789ABCDEF".toList

/-- The value of a character as a digit of a base, in capitals or not (log entry 24). -/
def digitVal (base : Nat) (c : Char) : Option Nat := (hexDigits.take base).idxOf? c.toUpper

/-- The value of digits, most significant first; refused at a character that is no digit of the base. -/
def digitsVal (base : Nat) (ds : List Char) : Option Nat :=
  (allSome (digitVal base) ds).map (List.foldl (base * · + ·) 0)

/-- A number in the notation of `00_scope.md` section 6: `0x` hexadecimal, `0b` binary, plain decimal. -/
def number (t : List Char) : Option Nat :=
  match t with
  | [] => none
  | ['0', 'x'] => none
  | ['0', 'b'] => none
  | '0' :: 'x' :: ds => digitsVal 16 ds
  | '0' :: 'b' :: ds => digitsVal 2 ds
  | ds => digitsVal 10 ds

/-- A number that fits a field of `k` bits. -/
def numberBits (k : Nat) (t : List Char) : Option (BitVec k) :=
  match number t with
  | some n => if n < 2 ^ k then some (BitVec.ofNat k n) else none
  | none => none

/-- The register names of `10_state.md` rule R10 with their numbers. -/
def registerNames : List (String × Byte) :=
  [("CRC", 0x00), ("TARGET", 0x01), ("NCNT", 0x02), ("NONCE", 0x03), ("SCR", 0x04), ("DSC", 0x05),
    ("RST", 0x06), ("CUR", 0x07), ("SLEN", 0x08), ("FLAGS", 0x09), ("SCRC", 0x0A)] ++
  [("F_IMAGE", 0x10), ("F_SEGLSB", 0x11), ("F_OWNER", 0x12), ("F_TIER", 0x13), ("F_RSVD", 0x14),
    ("F_FLAGS", 0x15), ("F_SEGNUM", 0x16), ("F_OFFSET", 0x17), ("F_DLEN", 0x18), ("F_TRAILER", 0x19)] ++
  [("BOXADDR", 0x20), ("TIERVAL", 0x21), ("HCRC", 0x22)]

/-- The mnemonics of R72 with `op` and whether the operation takes an operand. -/
def mnemonics : List (String × Byte × Bool) :=
  [("CKINIT", 0x10, false), ("CKUPD", 0x11, true), ("CKFIN", 0x12, false), ("CKLD", 0x13, true),
    ("CKTGT", 0x14, true), ("CKSOLVE", 0x15, false), ("CKHIT", 0x16, true)] ++
  [("SCRLD", 0x20, true), ("SCRBIT", 0x21, true), ("DSCLD", 0x28, true), ("DSCBIT", 0x29, true)] ++
  [("RDOPEN", 0x30, false), ("RDNEXT", 0x31, false), ("SGLDB", 0x32, true)] ++
  [("CPADDR", 0x40, true), ("CPTIER", 0x41, true), ("CPBUILD", 0x42, false), ("CPLDB", 0x43, true),
    ("RDREG", 0xF0, true)]

/-- The entry of a table under a token. -/
def lookupToken {α : Type} (t : List Char) : List (String × α) → Option α
  | [] => none
  | (k, v) :: rest => if k.toList = t then some v else lookupToken t rest

/-- An operand as the 32-bit immediate; `RDREG` also takes a register name (R77). A number too wide for the
operation's field still makes a word, which the block answers `ERR_ILLEGAL_CMD` (R71). -/
def operandImm (op : Byte) (t : List Char) : Option Word :=
  match numberBits 32 t with
  | some n => some n
  | none =>
    if op = 0xF0 then
      match lookupToken t registerNames with
      | some r => some (r.setWidth 32)
      | none => none
    else none

/-- The bits of a string of `0` and `1`, with or without its double quotes (R78). -/
def bitString (t : List Char) : Option (List Bit) :=
  allSome (fun c => if c = '0' then some 0 else if c = '1' then some 1 else none)
    (t.filter fun c => c.toNat ≠ 34)

/-- Instructions as items of a host program. -/
def sendAll (is : List Instr) : List HostItem := is.map fun i => .send (encode i)

/-- The pseudo-instructions of R78. DESIGN CHOICE (log entry 24): R78 does not say what a too-wide operand of a
pseudo-instruction does; a `CKBUF` or `CKSUM` operand above 255 and a `BUILD` operand of `2^32` or more make no line at
all, where `CKUPD 256` written out makes an illegal word. -/
def pseudoItems (name : List Char) (args : List (List Char)) : Option (List HostItem) :=
  if name = "CKBUF".toList then (allSome (numberBits 8) args).map fun bs => sendAll (ckbuf bs)
  else if name = "CKSUM".toList then (allSome (numberBits 8) args).map fun bs => sendAll (cksum bs)
  else if name = "SCRBITS".toList then
    match args with
    | [t] => (bitString t).map fun bs => sendAll (scrbits bs)
    | _ => none
  else if name = "DSCBITS".toList then
    match args with
    | [t] => (bitString t).map fun bs => sendAll (dscbits bs)
    | _ => none
  else if name = "WARMUP".toList then
    match args with
    | [t] => (number t).map fun n => [.warmup n]
    | _ => none
  else if name = "BUILD".toList then
    match args with
    | [a, t] =>
      match numberBits 32 a, numberBits 32 t with
      | some a, some t => some (sendAll (buildSeq a t))
      | _, _ => none
    | _ => none
  else none

/-- One line's tokens: nothing, `MNEMONIC`, `MNEMONIC operand` or a pseudo-instruction (R77, R78). -/
def lineItems : List (List Char) → Option (List HostItem)
  | [] => some []
  | name :: args =>
    match lookupToken name mnemonics with
    | none => pseudoItems name args
    | some (op, takes) =>
      match takes, args with
      | false, [] => some [.send (commandWord op 0)]
      | true, [t] => (operandImm op t).map fun imm => [.send (commandWord op imm)]
      | _, _ => none

/-! ### The expected response after `->` (R77) -/

/-- The names of the response codes (`60_exceptions.md` rule R201). -/
def codeNames : List (String × Code) :=
  [("OK", .ok), ("EOS", .eos), ("CKSUM_MISMATCH", .cksumMismatch), ("ERR_ILLEGAL_CMD", .errIllegalCmd),
    ("ERR_TOO_LARGE", .errTooLarge), ("ERR_TRUNCATED", .errTruncated), ("ERR_TOO_SHORT", .errTooShort)] ++
  [("ERR_NO_DATA", .errNoData), ("ERR_PRECONDITION", .errPrecondition), ("ERR_NOT_OPEN", .errNotOpen)]

/-- The codes in the table's order. -/
def allCodes : List Code := codeNames.map (·.2)

/-- A code written as hexadecimal digits or as its name. DESIGN CHOICE (log entry 24): any number of digits is read,
and a number that is no code of R201 is refused. -/
def codeToken (t : List Char) : Option Code :=
  match lookupToken t codeNames with
  | some c => some c
  | none =>
    match t, digitsVal 16 t with
    | [], _ => none
    | _, some n => allCodes.find? fun c => c.byte.toNat = n
    | _, none => none

/-- `code/val`, `val` as hexadecimal digits (R73, R77). DESIGN CHOICE (log entry 24): the spec shows two digits for
`code` and eight for `val` by example only; any number of digits is read, as long as `val` fits 32 bits. -/
def responseToken (t : List Char) : Option Response :=
  match codeToken (t.takeWhile (· ≠ '/')), t.dropWhile (· ≠ '/') with
  | some c, '/' :: d :: ds =>
    match digitsVal 16 (d :: ds) with
    | some n => if n < 2 ^ 32 then some ⟨c, BitVec.ofNat 32 n⟩ else none
    | none => none
  | _, _ => none

/-- The tokens before `->` and those after it. -/
def splitArrow : List (List Char) → List (List Char) × List (List Char)
  | [] => ([], [])
  | t :: ts => if t = "->".toList then ([], ts) else (t :: (splitArrow ts).1, (splitArrow ts).2)

/-- An assembled line: its items and the response the line expects, if it says one (on a line of several commands or
none, what it is compared with is the host's; log entry 24). -/
structure AsmLine where
  items : List HostItem
  expect : Option Response
  deriving DecidableEq, Repr

/-- One line of a program (R77). DESIGN CHOICE (log entry 24): R77 gives no line with `->` and no response after it;
such a line is read as one with no expected response. A line with more than one token after `->` is refused. -/
def assembleLine (line : List Char) : Option AsmLine :=
  let parts := splitArrow (tokens [] (dropComment line))
  match lineItems parts.1, parts.2 with
  | some is, [] => some ⟨is, none⟩
  | some is, [t] =>
    match responseToken t with
    | some r => some ⟨is, some r⟩
    | none => none
  | _, _ => none

/-- A program: a straight list of lines, run in order (R77). -/
def assemble (lines : List String) : Option (List AsmLine) := allSome (fun l => assembleLine l.toList) lines

end Sys2Proof.Machine
end

