-- ==== Sys2Proof/Machine/Formats.lean ====
section
/-! DEFINITION. The value and byte formats the spec gives and no operation evaluates: tier and box address
(`20_memory.md` rules R54 to R56), segment and container (R42, R43), wire frame (R57), finished control packet
(`43_builder.md` rule R176). The open parameters are arguments (`00_scope.md` rule R7; log entry 14). -/

namespace Sys2Proof.Machine

/-! ### Tier (R54, R55) -/

/-- The two interpretations of a tier (R54). -/
inductive TierMode where
  | andMode
  | xorMode
  deriving DecidableEq, Repr

/-- `tier_mode(t)`: selected by bit 31 (R54). -/
def tierMode (t : Word) : TierMode := if t.msb then .xorMode else .andMode

/-- `tier_mask(t) = t[30:0]` (R54). -/
def tierMask (t : Word) : BitVec 31 := t.extractLsb' 0 31

/-- `tier_grants(t, rx)`, the access predicate of receivers outside the block (R55). -/
def tierGrants (cmp : TierXorCompare) (t rx : Word) : Bool :=
  match tierMode t with
  | .andMode => tierMask t &&& tierMask rx != 0
  | .xorMode =>
    match cmp with
    | .low31 => tierMask t == tierMask rx
    | .all32 => t == rx

/-! ### Box address (R56) -/

/-- `addr_is_broadcast(a)` (R56). -/
def addrIsBroadcast (a : Word) : Bool := a == Config.addrBroadcast

/-- `addr_is_unicast(a)` (R56). -/
def addrIsUnicast (a : Word) : Bool := a.msb && a != Config.addrBroadcast

/-- `addr_identity(a) = a[30:0]` (R56). -/
def addrIdentity (a : Word) : BitVec 31 := a.extractLsb' 0 31

/-- `addr_valid(a)` (R56). -/
def addrValid (a : Word) : Bool := addrIsUnicast a || addrIsBroadcast a

/-! ### Segment and container (R42, R43) -/

/-- The fields of a segment header, in the order of R43; `reserved` is the two raw bytes, first byte high. -/
structure SegHeader where
  imageNumber : BitVec 24
  segmentLsb : Byte
  owner : Byte
  tierBits : Word
  reserved : Half
  flags : Byte
  segmentNumber : Half
  offset : Half
  deriving DecidableEq, Repr

/-- The 16 header bytes (R43): `segment_number` little-endian, the other multi-byte fields big-endian. -/
def SegHeader.bytes (h : SegHeader) : List Byte :=
  [h.imageNumber.extractLsb' 16 8, h.imageNumber.extractLsb' 8 8, h.imageNumber.extractLsb' 0 8,
    h.segmentLsb, h.owner] ++ wordBytesBE h.tierBits ++ bytesBE h.reserved ++ [h.flags] ++
  [loByte h.segmentNumber, hiByte h.segmentNumber] ++ bytesBE h.offset

/-- The trailer of these bytes: their finished checksum, most significant byte first (R46). -/
def trailerBytes (covered : List Byte) : List Byte :=
  bytesBE (crcFinish (crcBytes Config.poly crcInit covered))

/-- A segment with its right trailer: `header ++ data ++ trailer` (R43, R46). -/
def segmentBytes (h : SegHeader) (data : List Byte) : List Byte :=
  h.bytes ++ data ++ trailerBytes (h.bytes ++ data)

/-- A 2-byte little-endian length prefix (R42). -/
def prefixBytes (len : Nat) : List Byte := [BitVec.ofNat 8 len, BitVec.ofNat 8 (len / 256)]

/-- A sequence of segment bodies, each after its prefix (R42). -/
def containerBytes : List (List Byte) → List Byte
  | [] => []
  | b :: bodies => prefixBytes b.length ++ b ++ containerBytes bodies

/-- The sentinel prefix that ends a container (R42). -/
def sentinelBytes : List Byte := prefixBytes Config.sentinel.toNat

/-! ### Wire frame (R57) -/

/-- The bits of a byte in transmission order, under `WIRE_BIT_ORDER` (R57). -/
def wireBits (order : WireBitOrder) (b : Byte) : List Bit :=
  match order with
  | .lsbFirst => (List.range 8).map fun i => b.extractLsb' i 1
  | .msbFirst => ((List.range 8).map fun i => b.extractLsb' i 1).reverse

/-- The bits of a wire frame before scrambling: flag bytes, big-endian address, big-endian tier, payload; the
number of flag bytes is the host's choice (R57). -/
def wireFrame (order : WireBitOrder) (flag : Byte) (flags : Nat) (addr tier : Word) (payload : List Byte) :
    List Bit :=
  (List.replicate flags flag ++ wordBytesBE addr ++ wordBytesBE tier ++ payload).flatMap (wireBits order)

/-- What goes on the wire: every bit of the frame through the scrambler (R57). -/
def sendFrame (scr : ShiftReg) (frame : List Bit) : ShiftReg × List Bit := runBits scrStep scr frame

/-- What is recovered: every received bit through the descrambler (R57). -/
def receiveFrame (dsc : ShiftReg) (wire : List Bit) : ShiftReg × List Bit := runBits dscStep dsc wire

/-! ### The finished control packet (R176) -/

/-- `HDR[0..15] ++ [NONCE[15:8], NONCE[7:0]]`, 18 bytes (R176). -/
def State.finishedPacket (s : State) : List Byte := s.hdr.readBytes 0 Config.hdrLen ++ bytesBE s.nonce

end Sys2Proof.Machine
end

