-- ==== Sys2Proof/Safety.lean ====
section
/-! DEFINITION. What counts as a safe state and a safe run, in the terms the statements use: the invariant of the
block, what a command word runs, which bytes can be read, and when two states look the same to the host. -/

namespace Sys2Proof.Machine

/-! ### The invariant -/

/-- `SEG` and `HDR` are in canonical form and inside their sizes (`20_memory.md` rule R40). -/
def State.MemoriesWf (s : State) : Prop := s.seg.wf segSize = true ∧ s.hdr.wf hdrSize = true

/-- `HITMAP`, `NCNT` and `NONCE` tell one search's result: the hits rise below 65536, `NCNT` counts them, `NONCE`
is the lowest or 0 (`10_state.md` rules R14, R15). -/
def State.SearchWf (s : State) : Prop :=
  s.hitmap.Pairwise (· < ·) ∧ (∀ n ∈ s.hitmap, n < 65536) ∧
  s.ncnt.toNat = s.hitmap.length ∧ s.nonce.toNat = s.hitmap.headD 0

/-- The cursor stands inside the image, whose length fits it (`10_state.md` rule R19, `20_memory.md` rule R40);
a closed reader has consumed nothing (R30, `41_reader.md` rule R134). -/
def State.CursorWf (s : State) : Prop :=
  s.src.length < 2 ^ 32 ∧ s.cur.toNat ≤ s.src.length ∧ (s.rst = .closed → s.cur = 0)

/-- The bytes of the segment held in `SEG`. -/
def State.segment (s : State) : List Byte := s.seg.readBytes 0 s.slen.toNat

/-- With `SEGV == 0` there is no segment: `SLEN` and `CKOK` are 0 (`10_state.md` rules R20, R21). With `SEGV == 1`
the reader runs, `SLEN` is 18 to 1024, `SEG` holds the `SLEN` bytes of `SRC` just before the cursor (R129), `SCRC`
is their running checksum without the trailer (R22), and `CKOK` says whether the trailer matched (R21, R46). -/
def State.SegmentWf (s : State) : Prop :=
  (s.flags.segv = false → s.slen = 0 ∧ s.flags.ckok = false) ∧
  (s.flags.segv = true →
    s.rst = .run ∧ 18 ≤ s.slen.toNat ∧ s.slen.toNat ≤ 1024 ∧ s.slen.toNat + 2 ≤ s.cur.toNat ∧
    s.segment = (s.src.drop (s.cur.toNat - s.slen.toNat)).take s.slen.toNat ∧
    s.scrc = crcBytes Config.poly 0xFFFF (s.segment.take (s.slen.toNat - 2)) ∧
    (s.flags.ckok = true ↔ crcFinish s.scrc = s.fTrailer))

/-- With `HDRV == 1` `HDR` holds a header some `CPBUILD` built (`10_state.md` rule R26, `43_builder.md` rules R173,
R174) and `HCRC` its running checksum. -/
def State.HeaderWf (s : State) : Prop :=
  s.flags.hdrv = true →
    (∃ addr tier, addr.msb = true ∧ s.hdr.readBytes 0 16 = headerBytes addr tier) ∧
    s.hcrc = crcBytes Config.poly 0xFFFF (s.hdr.readBytes 0 16)

/-- The invariant every step keeps. -/
def State.Inv (s : State) : Prop :=
  s.MemoriesWf ∧ s.SearchWf ∧ s.CursorWf ∧ s.SegmentWf ∧ s.HeaderWf

/-! ### Ends of the reader -/

/-- The reader ended: cursor, status and response as given, no segment held, nothing else changed
(`41_reader.md` rules R122, R131; `60_exceptions.md` rule R216). -/
def State.endedAt (s : State) (cur : Word) (r : Rst) (c : Code) : State :=
  { s with
    cur := cur
    rst := r
    slen := 0
    flags := { segv := false, ckok := false, hdrv := s.flags.hdrv }
    responses := ⟨c, 0⟩ :: s.responses }

/-- The byte of the image at an offset. -/
def State.imageByte (s : State) (i : Nat) : Byte := s.src.getD i 0

/-- The value of the length prefix at the cursor (`41_reader.md` rule R126). -/
def State.prefixAtCursor (s : State) : Nat :=
  (s.imageByte s.cur.toNat).toNat + 256 * (s.imageByte (s.cur.toNat + 1)).toNat

/-! ### Command words -/

/-- What the words with this `op` do: with `imm[31:k]` zero the operation runs on the state with the command taken,
else the answer is `ERR_ILLEGAL_CMD/00000000` and nothing else changes (`30_encoding.md` rules R70, R71, R75). -/
def WordRuns (op : Byte) (k : Nat) (mk : Word → Instr) : Prop :=
  ∀ (s : State) (imm : Word) (rest : List Input),
    s.inputs = .command (op ++ imm) :: rest →
      step s =
        if imm >>> k = 0 then exec (mk imm) { s with inputs := rest }
        else .next { s with inputs := rest, responses := ⟨.errIllegalCmd, 0⟩ :: s.responses }

/-! ### What the host can see (`93_implementation_defined.md` U15, U16) -/

/-- The state with everything unreadable blanked: bytes of `SEG` at and above `SLEN`, all of `SEG` and `SCRC`
while `SEGV == 0`, `HDR` and `HCRC` while `HDRV == 0`. -/
def State.SameToHost (s t : State) : Prop :=
  { s with seg := [], hdr := [], scrc := 0, hcrc := 0 } = { t with seg := [], hdr := [], scrc := 0, hcrc := 0 } ∧
  (s.flags.segv = true → s.scrc = t.scrc ∧ ∀ a, a < s.slen.toNat → s.segByte a = t.segByte a) ∧
  (s.flags.hdrv = true → s.hcrc = t.hcrc ∧ ∀ a, a < 16 → s.hdrByte a = t.hdrByte a)

/-! ### Bits and runs -/

/-- The low 20 bits of a shift register, all that any output depends on (`10_state.md` rule R29). -/
def low20 (s : ShiftReg) : BitVec 20 := s.extractLsb' 0 20

/-- A register value the scrambler can come back to under zero input (`42_scrambler.md` rule R158). -/
def Recurrent (s : ShiftReg) : Prop := ∀ i, i < 3 → s.getLsbD i = !(s.getLsbD (i + 3) ^^ s.getLsbD (i + 20))

/-- `n` steps of the scrambler under zero input. -/
def zeroSteps (n : Nat) (s : ShiftReg) : ShiftReg := (runBits scrStep s (List.replicate n 0)).1

/-- The block after these inputs, one step each, from a state with no inputs. -/
def State.afterInputs (s : State) (inputs : List Input) : Host.Outcome State Fault Refusal :=
  Host.Core.run Sys2Proof.core inputs.length { s with inputs := inputs }

end Sys2Proof.Machine
end

