-- ==== Sys2Proof/Certificates/Slice0/Obligations.lean ====
section
/-! DEFINITION. The statements for the provers, from the numbered rules of spec/. -/

open Sys2Proof Sys2Proof.Machine

/-! ### The checksum unit (`40_checksum.md`) -/

/-- R97: `CKINIT` sets `CRC` to `0xFFFF`, whatever it was, and touches no other state. -/
def Obligations.CkinitSetsTheInitialValue : Prop :=
  (∀ s : State, exec .ckinit s = .next { s with crc := 0xFFFF, responses := ⟨.ok, 0x0000FFFF⟩ :: s.responses }) ∧
  WordRuns 0x10 0 (fun _ => .ckinit)

/-- R98: `CKUPD b` runs one byte through the checksum, answers the new value and touches nothing but `CRC`. -/
def Obligations.CkupdRunsOneByte : Prop :=
  (∀ (s : State) (b : Byte),
    exec (.ckupd b) s =
      .next { s with
        crc := crcUpdate Config.poly s.crc b
        responses := ⟨.ok, (crcUpdate Config.poly s.crc b).setWidth 32⟩ :: s.responses }) ∧
  WordRuns 0x11 8 (fun imm => .ckupd (imm.extractLsb' 0 8))

/-- R99, R96: `CKFIN` replaces `CRC` by its finished value, the complement. -/
def Obligations.CkfinWritesTheFinishedValue : Prop :=
  (∀ s : State,
    exec .ckfin s =
      .next { s with
        crc := s.crc ^^^ 0xFFFF
        responses := ⟨.ok, (s.crc ^^^ 0xFFFF).setWidth 32⟩ :: s.responses }) ∧
  (∀ s t u : State, exec .ckfin s = .next t → exec .ckfin t = .next u → u.crc = s.crc) ∧
  WordRuns 0x12 0 (fun _ => .ckfin)

/-- R100: `CKLD v` loads `CRC`. -/
def Obligations.CkldLoadsTheChecksum : Prop :=
  (∀ (s : State) (v : Half),
    exec (.ckld v) s = .next { s with crc := v, responses := ⟨.ok, v.setWidth 32⟩ :: s.responses }) ∧
  WordRuns 0x13 16 (fun imm => .ckld (imm.extractLsb' 0 16))

/-- R101: `CKTGT v` sets `TARGET` and keeps the results of the last search. -/
def Obligations.CktgtSetsOnlyTheTarget : Prop :=
  (∀ (s : State) (v : Half),
    exec (.cktgt v) s = .next { s with target := v, responses := ⟨.ok, v.setWidth 32⟩ :: s.responses }) ∧
  WordRuns 0x14 16 (fun imm => .cktgt (imm.extractLsb' 0 16))

/-- R103 with R102: `CKSOLVE` sets `HITMAP[n]` exactly for the nonces whose two bytes, high byte first, bring `CRC`
to `TARGET`; `NCNT` is their number; `NONCE` is the lowest, 0 when there is none; nothing else changes. -/
def Obligations.CksolveRecordsTheSearch : Prop :=
  (∀ s : State, ∃ t : State,
    exec .cksolve s = .next t ∧
    t = { s with
      hitmap := t.hitmap
      ncnt := t.ncnt
      nonce := t.nonce
      responses := ⟨.ok, t.ncnt.setWidth 32⟩ :: s.responses } ∧
    (∀ n : Half, t.hitBit n.toNat = true ↔
      crcUpdate Config.poly (crcUpdate Config.poly s.crc (n.extractLsb' 8 8)) (n.extractLsb' 0 8) = s.target) ∧
    t.ncnt.toNat = (Finset.univ.filter fun n : Half => t.hitBit n.toNat = true).card ∧
    (∀ n : Half, t.hitBit n.toNat = true → t.hitBit t.nonce.toNat = true ∧ t.nonce.toNat ≤ n.toNat) ∧
    ((∀ n : Half, t.hitBit n.toNat = false) → t.nonce = 0)) ∧
  WordRuns 0x15 0 (fun _ => .cksolve)

/-- R104: `CKHIT n` answers the bit `HITMAP[n]` and changes no state. -/
def Obligations.CkhitReadsOneSearchBit : Prop :=
  (∀ (s : State) (n : Half),
    exec (.ckhit n) s = .next { s with responses := ⟨.ok, if n.toNat ∈ s.hitmap then 1 else 0⟩ :: s.responses }) ∧
  (∀ (image : List Byte) (a b : ShiftReg) (n : Half),
    exec (.ckhit n) (State.resetWith image a b) = .next { State.resetWith image a b with responses := [⟨.ok, 0⟩] }) ∧
  WordRuns 0x16 16 (fun imm => .ckhit (imm.extractLsb' 0 16))

/-- R91 for the decided `POLY`: the 32 entries of the two tables. -/
def Obligations.TablesOfTheDecidedPolynomial : Prop :=
  (List.range 16).map (fun n => crcRom 0x1021 (BitVec.ofNat 5 n)) =
    [0x0000, 0x1021, 0x2042, 0x3063, 0x4084, 0x50A5, 0x60C6, 0x70E7,
      0x8108, 0x9129, 0xA14A, 0xB16B, 0xC18C, 0xD1AD, 0xE1CE, 0xF1EF] ∧
  (List.range 16).map (fun n => crcRom 0x1021 (BitVec.ofNat 5 (16 + n))) =
    [0x0000, 0x1231, 0x2462, 0x3653, 0x48C4, 0x5AF5, 0x6CA6, 0x7E97,
      0x9188, 0x83B9, 0xB5EA, 0xA7DB, 0xD94C, 0xCB7D, 0xFD2E, 0xEF1F]

/-- R91: for every polynomial and every byte the two lookups together give `T(b)`, and `T` is linear. -/
def Obligations.TwoNibbleTablesMakeOneByteTable : Prop :=
  ∀ (g : Half) (b b' : Byte),
    crcRom g ((0 : BitVec 1) ++ b.extractLsb' 0 4) ^^^ crcRom g ((1 : BitVec 1) ++ b.extractLsb' 4 4) = crcT g b ∧
    crcT g (b ^^^ b') = crcT g b ^^^ crcT g b'

/-- R93: the new high half is the old low half with the high half of the two lookups, the new low half is their low
half; the index byte is the old high half with the input byte. -/
def Obligations.CrcUpdateFollowsTheLookups : Prop :=
  ∀ (g c : Half) (b : Byte),
    let idx : Byte := c.extractLsb' 8 8 ^^^ b
    let t : Half := crcRom g ((idx &&& 0x0F).setWidth 5) ^^^ crcRom g (((idx >>> 4) ||| 0x10).setWidth 5)
    crcUpdate g c b = (c.extractLsb' 0 8 ^^^ t.extractLsb' 8 8) ++ t.extractLsb' 0 8

/-- R94: `crc_update` is the bit-serial, most-significant-bit-first division step, for every polynomial. -/
def Obligations.CrcUpdateIsBitSerialDivision : Prop :=
  ∀ (g c : Half) (b : Byte), crcUpdate g c b = crcUpdateSerial g c b

/-- R95: the streaming law, with `init() = 0xFFFF`. -/
def Obligations.CrcBytesStreams : Prop :=
  crcInit = 0xFFFF ∧
  (∀ g c : Half, crcBytes g c [] = c) ∧
  (∀ (g c : Half) (b : Byte) (rest : List Byte), crcBytes g c (b :: rest) = crcBytes g (crcUpdate g c b) rest) ∧
  (∀ (g c : Half) (A B : List Byte), crcBytes g (crcBytes g c A) B = crcBytes g c (A ++ B))

/-- R105: two updates by the bytes of `n` are one multiplication of `s XOR n` by `x^16`; for a polynomial with a
non-zero constant term every target is reached by exactly one nonce. -/
def Obligations.EveryTargetHasExactlyOneNonce : Prop :=
  (∀ g s n : Half,
    crcUpdate g (crcUpdate g s (n.extractLsb' 8 8)) (n.extractLsb' 0 8) = mulx16 g (s ^^^ n)) ∧
  (∀ g s target : Half, g.getLsbD 0 = true →
    ∃ k : Half, mulx16 g k = target ∧ solve g s target = [(s ^^^ k).toNat])

/-- R105 for the decided polynomial: the nonce that reaches `0x1D0F` is the finished checksum; and the three other
targets R105 names. -/
def Obligations.TheNonceIsTheFinishedChecksum : Prop :=
  ∀ s : Half,
    solve Config.poly s 0x1D0F = [(crcFinish s).toNat] ∧
    solve Config.poly s 0x0000 = [s.toNat] ∧
    solve Config.poly s 0xFFFF = [(s ^^^ 0x84CF).toNat] ∧
    solve Config.poly s 0x1234 = [(s ^^^ 0xC8E7).toNat]

/-- R106: comparing the finished checksum with the trailer and comparing the running value of all bytes with
`0x1D0F` agree on every input. -/
def Obligations.TheTwoTrailerTestsAgree : Prop :=
  ∀ (covered : List Byte) (trailer : Half),
    crcFinish (crcBytes Config.poly 0xFFFF covered) = trailer ↔
      crcBytes Config.poly 0xFFFF (covered ++ [trailer.extractLsb' 8 8, trailer.extractLsb' 0 8]) = 0x1D0F

/-- R133 (4): a single changed byte changes the checksum of the bytes it stands in. -/
def Obligations.OneChangedByteChangesTheChecksum : Prop :=
  ∀ (c : Half) (before after : List Byte) (b b' : Byte), b ≠ b' →
    crcBytes Config.poly c (before ++ b :: after) ≠ crcBytes Config.poly c (before ++ b' :: after)

/-! ### The scrambler unit (`42_scrambler.md`) -/

/-- R155, R156: `SCRLD v` and `DSCLD v` load one register each; a value with a higher bit set is refused. -/
def Obligations.ScrldAndDscldLoadOneRegister : Prop :=
  (∀ (s : State) (v : ShiftReg),
    exec (.scrld v) s = .next { s with scr := v, responses := ⟨.ok, v.setWidth 32⟩ :: s.responses } ∧
    exec (.dscld v) s = .next { s with dsc := v, responses := ⟨.ok, v.setWidth 32⟩ :: s.responses }) ∧
  WordRuns 0x20 23 (fun imm => .scrld (imm.extractLsb' 0 23)) ∧
  WordRuns 0x28 23 (fun imm => .dscld (imm.extractLsb' 0 23))

/-- R152 with R151: the output is the input, inverted, with bits 2 and 19 of the register before the shift; the
register takes the output as its new low bit and drops bit 22; nothing but `SCR` changes. -/
def Obligations.ScrbitShiftsItsOutputIn : Prop :=
  (∀ (s : State) (b : Bit),
    let out : Bit := BitVec.ofBool (b.getLsbD 0 ^^ true ^^ s.scr.getLsbD 2 ^^ s.scr.getLsbD 19)
    exec (.scrbit b) s =
      .next { s with scr := s.scr.extractLsb' 0 22 ++ out, responses := ⟨.ok, out.setWidth 32⟩ :: s.responses }) ∧
  WordRuns 0x21 1 (fun imm => .scrbit (imm.extractLsb' 0 1))

/-- R154 with R153: the received bit is shifted in; the output is that bit, inverted, with bits 3 and 20 of the
shifted register; nothing but `DSC` changes. -/
def Obligations.DscbitShiftsTheReceivedBitIn : Prop :=
  (∀ (s : State) (b : Bit),
    let dsc' : ShiftReg := s.dsc.extractLsb' 0 22 ++ b
    let out : Bit := BitVec.ofBool (b.getLsbD 0 ^^ true ^^ dsc'.getLsbD 3 ^^ dsc'.getLsbD 20)
    exec (.dscbit b) s =
      .next { s with dsc := dsc', responses := ⟨.ok, out.setWidth 32⟩ :: s.responses }) ∧
  WordRuns 0x29 1 (fun imm => .dscbit (imm.extractLsb' 0 1))

/-- R157: when the low 20 bits agree before a step, the bit is recovered and the low 20 bits agree after it. -/
def Obligations.ASynchronisedStepRecoversTheBit : Prop :=
  ∀ (s d : ShiftReg) (b : Bit), low20 d = low20 s →
    (dscStep d (scrStep s b).2).2 = b ∧ low20 (dscStep d (scrStep s b).2).1 = low20 (scrStep s b).1

/-- R157, R232: whatever the two registers hold, once the descrambler has taken 20 outputs of the scrambler every
later bit is recovered, and after 23 the registers are equal. -/
def Obligations.ScramblerRoundTrip : Prop :=
  ∀ (s : State) (sent : List Bit) (b : Bit), 20 ≤ sent.length →
    ∃ t u : State,
      hostPassBits sent s = .next t ∧ low20 t.dsc = low20 t.scr ∧ (23 ≤ sent.length → t.dsc = t.scr) ∧
      hostPassBit b t = .next u ∧ u.lastVal = b.setWidth 32

/-- R160: `SCR` holds the last outputs and `DSC` the last received bits, newest in bit 0; the bits from before the
sequence are those of the start register. -/
def Obligations.RegistersHoldTheLastBits : Prop :=
  ∀ (s : ShiftReg) (bits : List Bit) (k : Nat), k < 23 →
    tap (runBits scrStep s bits).1 k =
      (if k < bits.length then (runBits scrStep s bits).2.getD (bits.length - 1 - k) 0
      else tap s (k - bits.length)) ∧
    tap (runBits dscStep s bits).1 k =
      (if k < bits.length then bits.getD (bits.length - 1 - k) 0 else tap s (k - bits.length))

/-- R29: two registers that agree in their low 20 bits give the same outputs for ever. -/
def Obligations.UpperRegisterBitsAreUnread : Prop :=
  ∀ (s s' : ShiftReg) (bits : List Bit), low20 s = low20 s' →
    (runBits scrStep s bits).2 = (runBits scrStep s' bits).2 ∧
    (runBits dscStep s bits).2 = (runBits dscStep s' bits).2

/-- R159: with constant input 0 and all ones in `SCR[19:0]` the output is 1 for ever; with constant input 1 and all
zeros it is 0 for ever. -/
def Obligations.LockUpGivesAConstantOutput : Prop :=
  ∀ (s : ShiftReg) (n : Nat),
    (low20 s = 0xFFFFF → (runBits scrStep s (List.replicate n 0)).2 = List.replicate n 1) ∧
    (low20 s = 0 → (runBits scrStep s (List.replicate n 1)).2 = List.replicate n 0)

/-- R158: under zero input three steps reach a recurrent value from anywhere, recurrent values stay recurrent, and
`0x7FFFFF` is the only fixed point. -/
def Obligations.ZeroInputSettlesInThreeSteps : Prop :=
  ∀ s : ShiftReg,
    Recurrent (zeroSteps 3 s) ∧ (Recurrent s → Recurrent (zeroSteps 1 s)) ∧
    (zeroSteps 1 s = s ↔ s = 0x7FFFFF)

/-- R158: from the state that 32 zero bits reach from 0, the register first returns after 1048575 zero bits. -/
def Obligations.ScramblerCycleLength : Prop :=
  zeroSteps 32 0 = 0x0E3723 ∧ zeroSteps 1048575 0x0E3723 = 0x0E3723 ∧
  ∀ n : Nat, 0 < n → n < 1048575 → zeroSteps n 0x0E3723 ≠ 0x0E3723

/-- R244: one wrong received bit makes the recovered bits wrong at its place, 3 later and 20 later, and nowhere
else. -/
def Obligations.OneWrongBitSpoilsThree : Prop :=
  ∀ (d : ShiftReg) (before after : List Bit) (b : Bit) (j : Nat), j < before.length + 1 + after.length →
    ((runBits dscStep d (before ++ b :: after)).2.getD j 0 ≠
        (runBits dscStep d (before ++ (b ^^^ 1) :: after)).2.getD j 0 ↔
      j = before.length ∨ j = before.length + 3 ∨ j = before.length + 20)

/-! ### The reader (`41_reader.md`) -/

/-- R121: `RDOPEN` starts a reader at offset 0 from any status; `SEG`, `SCRC`, `HDRV` and the other units stay. -/
def Obligations.RdopenStartsANewReader : Prop :=
  (∀ s : State,
    exec .rdopen s =
      .next { s with
        cur := 0
        rst := .run
        slen := 0
        flags := { segv := false, ckok := false, hdrv := s.flags.hdrv }
        responses := ⟨.ok, 0⟩ :: s.responses }) ∧
  WordRuns 0x30 0 (fun _ => .rdopen)

/-- R123: `RDNEXT` is refused with no reader open, and repeats a terminal outcome's code, changing nothing. -/
def Obligations.RdnextIsRefusedOrSticky : Prop :=
  ∀ s : State,
    (s.rst = .closed → exec .rdnext s = .next { s with responses := ⟨.errNotOpen, 0⟩ :: s.responses }) ∧
    (s.rst = .tEos → exec .rdnext s = .next { s with responses := ⟨.eos, 0⟩ :: s.responses }) ∧
    (s.rst = .tTooLarge → exec .rdnext s = .next { s with responses := ⟨.errTooLarge, 0⟩ :: s.responses }) ∧
    (s.rst = .tTrunc → exec .rdnext s = .next { s with responses := ⟨.errTruncated, 0⟩ :: s.responses }) ∧
    (s.rst = .tTooShort → exec .rdnext s = .next { s with responses := ⟨.errTooShort, 0⟩ :: s.responses })

/-- R124, R125: at the physical end the reader ends cleanly; one byte left is the end when it is `0x1A`, else a
truncated image; the cursor stays. -/
def Obligations.RdnextAtTheEndOfTheImage : Prop :=
  ∀ s : State, s.rst = .run →
    (s.cur.toNat = s.src.length → exec .rdnext s = .next (s.endedAt s.cur .tEos .eos)) ∧
    (s.cur.toNat + 1 = s.src.length → s.imageByte s.cur.toNat = 0x1A →
      exec .rdnext s = .next (s.endedAt s.cur .tEos .eos)) ∧
    (s.cur.toNat + 1 = s.src.length → s.imageByte s.cur.toNat ≠ 0x1A →
      exec .rdnext s = .next (s.endedAt s.cur .tTrunc .errTruncated))

/-- R126, R127: the two-byte prefix is consumed; `0x1A1A` is a clean end, another value above 1024 is too large, a
value below 18 too short, whatever follows. -/
def Obligations.RdnextChecksTheLengthPrefix : Prop :=
  (∀ s : State, s.rst = .run → s.src.length < 2 ^ 32 → s.cur.toNat + 2 ≤ s.src.length →
    (s.prefixAtCursor = 0x1A1A → exec .rdnext s = .next (s.endedAt (s.cur + 2) .tEos .eos)) ∧
    (s.prefixAtCursor ≠ 0x1A1A → 1024 < s.prefixAtCursor →
      exec .rdnext s = .next (s.endedAt (s.cur + 2) .tTooLarge .errTooLarge)) ∧
    (s.prefixAtCursor < 18 → exec .rdnext s = .next (s.endedAt (s.cur + 2) .tTooShort .errTooShort))) ∧
  WordRuns 0x31 0 (fun _ => .rdnext)

/-- R128: with fewer bytes than declared the first body byte decides: there and `0x1A` is a clean end, else
truncated; the cursor stays just after the prefix and `SEG` is not written. -/
def Obligations.RdnextJudgesAShortBody : Prop :=
  ∀ s : State, s.rst = .run → s.src.length < 2 ^ 32 → s.cur.toNat + 2 ≤ s.src.length →
    18 ≤ s.prefixAtCursor → s.prefixAtCursor ≤ 1024 → s.src.length < s.cur.toNat + 2 + s.prefixAtCursor →
    exec .rdnext s =
      .next
        (if s.cur.toNat + 2 < s.src.length ∧ s.imageByte (s.cur.toNat + 2) = 0x1A then
          s.endedAt (s.cur + 2) .tEos .eos
        else s.endedAt (s.cur + 2) .tTrunc .errTruncated)

/-- R129, R130: a whole body is copied to `SEG` and yielded, valid or not; `SCRC` is the running checksum of header
and data, `CKOK` says whether its finished value is the big-endian trailer; bytes of `SEG` at the length and above
and all other state stay. -/
def Obligations.RdnextYieldsTheSegment : Prop :=
  ∀ (s : State) (len : Nat), s.seg.wf segSize = true → s.rst = .run → s.src.length < 2 ^ 32 →
    len = s.prefixAtCursor → 18 ≤ len → len ≤ 1024 → s.cur.toNat + 2 + len ≤ s.src.length →
    ∃ t : State,
      exec .rdnext s = .next t ∧
      (∀ i, i < len → t.seg.read i = s.imageByte (s.cur.toNat + 2 + i)) ∧
      (∀ i, len ≤ i → t.seg.read i = s.seg.read i) ∧
      t.scrc = crcBytes Config.poly 0xFFFF ((s.src.drop (s.cur.toNat + 2)).take (len - 2)) ∧
      (t.flags.ckok = true ↔ crcFinish t.scrc =
        s.imageByte (s.cur.toNat + 2 + len - 2) ++ s.imageByte (s.cur.toNat + 2 + len - 1)) ∧
      t = { s with
        seg := t.seg
        scrc := t.scrc
        cur := BitVec.ofNat 32 (s.cur.toNat + 2 + len)
        slen := BitVec.ofNat 11 len
        flags := { segv := true, ckok := t.flags.ckok, hdrv := s.flags.hdrv }
        responses := ⟨if t.flags.ckok then .ok else .cksumMismatch, BitVec.ofNat 32 len⟩ :: s.responses }

/-- R132: `SGLDB off` reads one byte of the held segment; with none held or outside it the answer is
`ERR_NO_DATA`; nothing changes. -/
def Obligations.SgldbReadsTheHeldSegment : Prop :=
  (∀ (s : State) (off : BitVec 10),
    exec (.sgldb off) s =
      if s.flags.segv = false ∨ s.slen.toNat ≤ off.toNat then
        .next { s with responses := ⟨.errNoData, 0⟩ :: s.responses }
      else .next { s with responses := ⟨.ok, (s.seg.read off.toNat).setWidth 32⟩ :: s.responses }) ∧
  WordRuns 0x32 10 (fun imm => .sgldb (imm.extractLsb' 0 10))

/-- R44: the field views as numbers: `image_number`, `tier_bits`, `offset` and the trailer big-endian,
`segment_number` little-endian, the data length `SLEN - 18`. -/
def Obligations.FieldViewsOfTheSegment : Prop :=
  ∀ s : State, 18 ≤ s.slen.toNat →
    let b (i : Nat) : Nat := (s.seg.read i).toNat
    s.fImage.toNat = b 0 * 65536 + b 1 * 256 + b 2 ∧ s.fSegLsb.toNat = b 3 ∧ s.fOwner.toNat = b 4 ∧
    s.fTier.toNat = b 5 * 16777216 + b 6 * 65536 + b 7 * 256 + b 8 ∧
    s.fRsvd.toNat = b 9 * 256 + b 10 ∧ s.fFlags.toNat = b 11 ∧
    s.fSegNum.toNat = b 12 + b 13 * 256 ∧ s.fOffset.toNat = b 14 * 256 + b 15 ∧
    s.fDlen.toNat = s.slen.toNat - 18 ∧
    s.fTrailer.toNat = b (s.slen.toNat - 2) * 256 + b (s.slen.toNat - 1)

/-- R43, R44: the views of a segment laid out from its fields give the fields back. -/
def Obligations.SegmentFieldsReadBack : Prop :=
  ∀ (s : State) (h : SegHeader) (data : List Byte), data.length ≤ 1006 →
    s.slen = BitVec.ofNat 11 (18 + data.length) → s.segment = segmentBytes h data →
    s.fImage = h.imageNumber ∧ s.fSegLsb = h.segmentLsb ∧ s.fOwner = h.owner ∧ s.fTier = h.tierBits ∧
    s.fRsvd = h.reserved ∧ s.fFlags = h.flags ∧ s.fSegNum = h.segmentNumber ∧ s.fOffset = h.offset ∧
    s.fDlen.toNat = data.length ∧
    s.fTrailer = crcFinish (crcBytes Config.poly 0xFFFF (h.bytes ++ data))

/-- R134: only `RDOPEN` and reset change the status freely; a running reader goes on when it yields and ends when it
does not; an ended or closed reader stays so under `RDNEXT`; no other operation touches the status. -/
def Obligations.ReaderStatusMoves : Prop :=
  (∀ s t : State, exec .rdopen s = .next t → t.rst = .run) ∧
  (∀ s t : State, exec .rdnext s = .next t →
    (s.rst ≠ .run → t.rst = s.rst) ∧
    (s.rst = .run → t.rst ≠ .closed ∧ (t.rst = .run ↔ t.flags.segv = true))) ∧
  (∀ (i : Instr) (s t : State), i ≠ .rdopen → i ≠ .rdnext → exec i s = .next t → t.rst = s.rst) ∧
  (∀ s t : State, step s = .next t → t.rst = .closed → s.rst = .closed ∨ s.inputs.head? = some .reset)

/-- R19, R131, R133 (5): the cursor never goes back but by `RDOPEN`, stays inside the image, and a yield moves it by
at least 20 bytes. -/
def Obligations.CursorOnlyMovesForward : Prop :=
  ∀ (i : Instr) (s t : State), s.src.length < 2 ^ 32 → s.cur.toNat ≤ s.src.length → exec i s = .next t →
    t.cur.toNat ≤ t.src.length ∧ (i ≠ .rdopen → s.cur.toNat ≤ t.cur.toNat) ∧
    (i = .rdnext → s.rst = .run → t.flags.segv = true → s.cur.toNat + 20 ≤ t.cur.toNat)

/-- R42, R122: a container is read back segment by segment: the `k`-th `RDNEXT` yields the `k`-th body, judged by its
own trailer, and the one after the last is the end of the stream, by the physical end or by a sentinel, whatever
follows the sentinel. -/
def Obligations.AContainerIsReadBack : Prop :=
  ∀ (bodies : List (List Byte)) (tail : List Byte) (a b : ShiftReg),
    (∀ body ∈ bodies, 18 ≤ body.length ∧ body.length ≤ 1024) →
    (tail = [] ∨ ∃ rest, tail = 0x1A :: 0x1A :: rest) →
    (containerBytes bodies ++ tail).length < 2 ^ 32 →
    (∀ (k : Nat) (body : List Byte), bodies[k]? = some body →
      ∃ t : State,
        (State.resetWith (containerBytes bodies ++ tail) a b).afterInputs
          (.command 0x3000000000 :: List.replicate (k + 1) (.command 0x3100000000)) = .next t ∧
        t.rst = .run ∧ t.flags.segv = true ∧ t.segment = body ∧
        (t.flags.ckok = true ↔ trailerBytes (body.take (body.length - 2)) = body.drop (body.length - 2)) ∧
        t.responses.head? = some ⟨if t.flags.ckok then .ok else .cksumMismatch, BitVec.ofNat 32 body.length⟩) ∧
    (∃ t : State,
      (State.resetWith (containerBytes bodies ++ tail) a b).afterInputs
        (.command 0x3000000000 :: List.replicate (bodies.length + 1) (.command 0x3100000000)) = .next t ∧
      t.rst = .tEos ∧ t.flags.segv = false ∧ t.responses.head? = some ⟨.eos, 0⟩)

/-! ### The builder (`43_builder.md`) -/

/-- R171, R172: `CPADDR a` and `CPTIER t` store their operand, any value, and change nothing else; none of their
words is illegal. -/
def Obligations.CpaddrAndCptierStoreTheOperands : Prop :=
  (∀ (s : State) (v : Word),
    exec (.cpaddr v) s = .next { s with boxaddr := v, responses := ⟨.ok, v⟩ :: s.responses } ∧
    exec (.cptier v) s = .next { s with tierval := v, responses := ⟨.ok, v⟩ :: s.responses }) ∧
  (∀ (s : State) (v : Word) (rest : List Input),
    (s.inputs = .command ((0x40 : Byte) ++ v) :: rest → step s = exec (.cpaddr v) { s with inputs := rest }) ∧
    (s.inputs = .command ((0x41 : Byte) ++ v) :: rest → step s = exec (.cptier v) { s with inputs := rest }))

/-- R174 with R47, R173, R210: with `BOXADDR[31]` set `CPBUILD` lays out the header, sets `HCRC` and `HDRV` and
records the search from `HCRC` against `TARGET`; with it clear the answer is `ERR_PRECONDITION` and nothing is
written. -/
def Obligations.CpbuildBuildsAndSearches : Prop :=
  (∀ s : State, s.hdr.wf hdrSize = true → s.boxaddr.getLsbD 31 = true →
    ∃ t : State,
      exec .cpbuild s = .next t ∧
      (List.range 16).map t.hdr.read =
        [s.boxaddr.extractLsb' 24 8, s.boxaddr.extractLsb' 16 8, s.boxaddr.extractLsb' 8 8, s.boxaddr.extractLsb' 0 8,
          0x81, s.tierval.extractLsb' 24 8, s.tierval.extractLsb' 16 8, s.tierval.extractLsb' 8 8,
          s.tierval.extractLsb' 0 8, 0, 0, 0, 0, 0, 0, 0] ∧
      (∀ i, 16 ≤ i → t.hdr.read i = s.hdr.read i) ∧
      t.hcrc = crcBytes Config.poly 0xFFFF ((List.range 16).map t.hdr.read) ∧
      (∀ n : Half, t.hitBit n.toNat = true ↔
        crcUpdate Config.poly (crcUpdate Config.poly t.hcrc (n.extractLsb' 8 8)) (n.extractLsb' 0 8) = s.target) ∧
      t.ncnt.toNat = (Finset.univ.filter fun n : Half => t.hitBit n.toNat = true).card ∧
      (∀ n : Half, t.hitBit n.toNat = true → t.hitBit t.nonce.toNat = true ∧ t.nonce.toNat ≤ n.toNat) ∧
      ((∀ n : Half, t.hitBit n.toNat = false) → t.nonce = 0) ∧
      t = { s with
        hdr := t.hdr
        hcrc := t.hcrc
        flags := { segv := s.flags.segv, ckok := s.flags.ckok, hdrv := true }
        hitmap := t.hitmap
        ncnt := t.ncnt
        nonce := t.nonce
        responses := ⟨.ok, t.ncnt.setWidth 32⟩ :: s.responses }) ∧
  (∀ s : State, s.boxaddr.getLsbD 31 = false →
    exec .cpbuild s = .next { s with responses := ⟨.errPrecondition, 0⟩ :: s.responses }) ∧
  WordRuns 0x42 0 (fun _ => .cpbuild)

/-- R175: `CPLDB i` reads one byte of the built header, `ERR_NO_DATA` before a build; nothing changes. -/
def Obligations.CpldbReadsTheBuiltHeader : Prop :=
  (∀ (s : State) (i : BitVec 4),
    exec (.cpldb i) s =
      if s.flags.hdrv = false then .next { s with responses := ⟨.errNoData, 0⟩ :: s.responses }
      else .next { s with responses := ⟨.ok, (s.hdr.read i.toNat).setWidth 32⟩ :: s.responses }) ∧
  WordRuns 0x43 4 (fun imm => .cpldb (imm.extractLsb' 0 4))

/-- R176: for every target the 16 header bytes a build leaves, with the two bytes of any hit of its search after them,
have the running checksum `TARGET`; so has the finished packet when there is a hit. With the default target that packet,
read back as a segment by a fresh block, validates (R106), and shows the tier where `tier_bits` lie and the command byte
where `owner` lies. -/
def Obligations.ABuiltPacketValidatesAsASegment : Prop :=
  ∀ (s : State) (a b : ShiftReg), s.hdr.wf hdrSize = true → s.boxaddr.getLsbD 31 = true →
    ∃ t : State,
      exec .cpbuild s = .next t ∧ t.finishedPacket.length = 18 ∧
      t.finishedPacket =
        (List.range 16).map t.hdr.read ++ [t.nonce.extractLsb' 8 8, t.nonce.extractLsb' 0 8] ∧
      (∀ n : Half, t.hitBit n.toNat = true →
        crcBytes Config.poly 0xFFFF
          ((List.range 16).map t.hdr.read ++ [n.extractLsb' 8 8, n.extractLsb' 0 8]) = s.target) ∧
      (1 ≤ t.ncnt.toNat → crcBytes Config.poly 0xFFFF t.finishedPacket = s.target) ∧
      (s.target = 0x1D0F →
        crcBytes Config.poly 0xFFFF t.finishedPacket = s.target ∧
        ∃ u : State,
          (State.resetWith (0x12 :: 0x00 :: t.finishedPacket) a b).afterInputs
            [.command 0x3000000000, .command 0x3100000000] = .next u ∧
          u.responses = [⟨.ok, 18⟩, ⟨.ok, 0⟩] ∧ u.segment = t.finishedPacket ∧ u.fTier = s.tierval ∧
          u.fOwner = 0x81)

/-! ### Register read (`44_system.md`) -/

/-- R190, R191: `RDREG` answers every register of the map, refuses a view or `SCRC` with no segment and `HCRC` with
no header, and answers an unassigned number as an illegal command; it changes nothing. -/
def Obligations.RdregReadsTheRegisterMap : Prop :=
  (∀ s : State,
    (exec (.rdreg 0x00) s = .next (s.answer .ok (s.crc.setWidth 32)) ∧
      exec (.rdreg 0x01) s = .next (s.answer .ok (s.target.setWidth 32)) ∧
      exec (.rdreg 0x02) s = .next (s.answer .ok (s.ncnt.setWidth 32)) ∧
      exec (.rdreg 0x03) s = .next (s.answer .ok (s.nonce.setWidth 32)) ∧
      exec (.rdreg 0x04) s = .next (s.answer .ok (s.scr.setWidth 32)) ∧
      exec (.rdreg 0x05) s = .next (s.answer .ok (s.dsc.setWidth 32)) ∧
      exec (.rdreg 0x06) s = .next (s.answer .ok (match s.rst with
        | .closed => 0 | .run => 1 | .tEos => 2 | .tTooLarge => 3 | .tTrunc => 4 | .tTooShort => 5)) ∧
      exec (.rdreg 0x07) s = .next (s.answer .ok s.cur) ∧
      exec (.rdreg 0x08) s = .next (s.answer .ok (s.slen.setWidth 32)) ∧
      exec (.rdreg 0x09) s = .next (s.answer .ok ((if s.flags.segv then 1 else 0) +
        (if s.flags.ckok then 2 else 0) + (if s.flags.hdrv then 4 else 0))) ∧
      exec (.rdreg 0x20) s = .next (s.answer .ok s.boxaddr) ∧
      exec (.rdreg 0x21) s = .next (s.answer .ok s.tierval)) ∧
    (s.flags.segv = true →
      exec (.rdreg 0x0A) s = .next (s.answer .ok (s.scrc.setWidth 32)) ∧
      exec (.rdreg 0x10) s = .next (s.answer .ok (s.fImage.setWidth 32)) ∧
      exec (.rdreg 0x11) s = .next (s.answer .ok (s.fSegLsb.setWidth 32)) ∧
      exec (.rdreg 0x12) s = .next (s.answer .ok (s.fOwner.setWidth 32)) ∧
      exec (.rdreg 0x13) s = .next (s.answer .ok s.fTier) ∧
      exec (.rdreg 0x14) s = .next (s.answer .ok (s.fRsvd.setWidth 32)) ∧
      exec (.rdreg 0x15) s = .next (s.answer .ok (s.fFlags.setWidth 32)) ∧
      exec (.rdreg 0x16) s = .next (s.answer .ok (s.fSegNum.setWidth 32)) ∧
      exec (.rdreg 0x17) s = .next (s.answer .ok (s.fOffset.setWidth 32)) ∧
      exec (.rdreg 0x18) s = .next (s.answer .ok (s.fDlen.setWidth 32)) ∧
      exec (.rdreg 0x19) s = .next (s.answer .ok (s.fTrailer.setWidth 32))) ∧
    (s.flags.hdrv = true → exec (.rdreg 0x22) s = .next (s.answer .ok (s.hcrc.setWidth 32)))) ∧
  (∀ (s : State) (r : Byte),
    (s.flags.segv = false → r.toNat = 0x0A ∨ (0x10 ≤ r.toNat ∧ r.toNat ≤ 0x19) →
      exec (.rdreg r) s = .next (s.answer .errNoData 0)) ∧
    (s.flags.hdrv = false → r.toNat = 0x22 → exec (.rdreg r) s = .next (s.answer .errNoData 0)) ∧
    ((0x0B ≤ r.toNat ∧ r.toNat ≤ 0x0F) ∨ (0x1A ≤ r.toNat ∧ r.toNat ≤ 0x1F) ∨ 0x23 ≤ r.toNat →
      exec (.rdreg r) s = .next (s.answer .errIllegalCmd 0))) ∧
  (∀ (s : State) (c : Code) (v : Word), s.answer c v = { s with responses := ⟨c, v⟩ :: s.responses }) ∧
  WordRuns 0xF0 8 (fun imm => .rdreg (imm.extractLsb' 0 8))

/-! ### Words, steps and reset -/

/-- R75, R204, R79: a word with an unknown `op`, with a reserved immediate bit set, or `RDREG` of an unassigned
register is answered `ERR_ILLEGAL_CMD` in every state and changes nothing; every word has a response. -/
def Obligations.IllegalWordsChangeNothing : Prop :=
  ∀ (s : State) (op : Byte) (imm : Word) (rest : List Input), s.inputs = .command (op ++ imm) :: rest →
    (op.toNat ∉ [0x10, 0x11, 0x12, 0x13, 0x14, 0x15, 0x16, 0x20, 0x21, 0x28, 0x29, 0x30, 0x31, 0x32, 0x40, 0x41,
        0x42, 0x43, 0xF0] ∨
      (op.toNat ∈ [0x10, 0x12, 0x15, 0x30, 0x31, 0x42] ∧ imm.toNat ≠ 0) ∨
      (op.toNat ∈ [0x21, 0x29] ∧ 2 ^ 1 ≤ imm.toNat) ∨ (op.toNat ∈ [0x43] ∧ 2 ^ 4 ≤ imm.toNat) ∨
      (op.toNat ∈ [0x11, 0xF0] ∧ 2 ^ 8 ≤ imm.toNat) ∨ (op.toNat ∈ [0x32] ∧ 2 ^ 10 ≤ imm.toNat) ∨
      (op.toNat ∈ [0x13, 0x14, 0x16] ∧ 2 ^ 16 ≤ imm.toNat) ∨ (op.toNat ∈ [0x20, 0x28] ∧ 2 ^ 23 ≤ imm.toNat) ∨
      (op.toNat = 0xF0 ∧ ((0x0B ≤ imm.toNat ∧ imm.toNat ≤ 0x0F) ∨ (0x1A ≤ imm.toNat ∧ imm.toNat ≤ 0x1F) ∨
        0x23 ≤ imm.toNat)) →
      step s = .next { s with inputs := rest, responses := ⟨.errIllegalCmd, 0⟩ :: s.responses }) ∧
    ∃ t : State, step s = .next t ∧ t.responses.length = s.responses.length + 1

/-- A step takes the oldest input; a command word that decodes to `i` runs `exec i` on the state with the command
taken (R8, R79; the list of inputs is log entry 1). -/
def Obligations.StepRunsTheDecodedCommand : Prop :=
  ∀ (s : State) (w : Word40) (rest : List Input) (i : Instr),
    s.inputs = .command w :: rest → decode w = .ok i → step s = exec i { s with inputs := rest }

/-- R230 with R30, R217: a reset input puts every register at its reset value, `SCR` and `DSC` at the seeds; `SRC`,
the responses given and the inputs to come stay (log entry 18); with no input nothing happens. -/
def Obligations.ResetAndIdleSteps : Prop :=
  (∀ (s : State) (rest : List Input), s.inputs = .reset :: rest →
    ∃ t : State,
      step s = .next t ∧ t.crc = 0xFFFF ∧ t.target = 0x1D0F ∧ t.ncnt = 0 ∧ t.nonce = 0 ∧
      (∀ n, t.hitBit n = false) ∧ t.scr = Config.seedS ∧ t.dsc = Config.seedD ∧ t.rst = .closed ∧ t.cur = 0 ∧
      t.slen = 0 ∧ t.flags = { segv := false, ckok := false, hdrv := false } ∧ t.scrc = 0 ∧ t.hcrc = 0 ∧
      t.boxaddr = 0 ∧ t.tierval = 0 ∧ t.src = s.src ∧ t.inputs = rest ∧ t.responses = s.responses) ∧
  (∀ s : State, s.inputs = [] → step s = .next s)

/-- R30: the state after reset, for every image and every pair of seeds; and `State.reset` is that state for the open
parameters. -/
def Obligations.ResetPutsEveryValue : Prop :=
  (∀ (image : List Byte) (a b : ShiftReg),
    let s := State.resetWith image a b
    s.crc = 0xFFFF ∧ s.target = 0x1D0F ∧ s.ncnt = 0 ∧ s.nonce = 0 ∧ (∀ n, s.hitBit n = false) ∧ s.scr = a ∧
    s.dsc = b ∧ s.rst.bits = 0 ∧ s.cur = 0 ∧ s.slen = 0 ∧ s.flags.bits = 0 ∧ s.scrc = 0 ∧ s.hcrc = 0 ∧
    s.boxaddr = 0 ∧ s.tierval = 0) ∧
  State.reset = State.resetWith Config.src Config.seedS Config.seedD

/-- R70, R71, R72: decoding the encoding of any instruction gives it back, with every operand. -/
def Obligations.DecodeOfEncodeIsTheInstruction : Prop := ∀ i : Instr, decode (encode i) = .ok i

/-- R72, R76: a word that decodes is the encoding of its instruction and matches that instruction's row of the opcode
table; every word that matches a row decodes. -/
def Obligations.EncodeOfDecodeIsTheWord : Prop :=
  ∀ (w : Word40) (i : Instr),
    (decode w = .ok i → encode i = w ∧ w &&& i.row.mask = i.row.pattern) ∧
    (w &&& i.row.mask = i.row.pattern → ∃ j, decode w = .ok j ∧ j.row = i.row)

/-- The legal words of `95_test_vectors.md` section 2 decode to what they stand for. -/
def Obligations.ExampleWordsDecode : Prop :=
  decode 0x1000000000 = .ok .ckinit ∧ decode 0x11000000A5 = .ok (.ckupd 0xA5) ∧
  decode 0x13000054BC = .ok (.ckld 0x54BC) ∧ decode 0x20007FFFFF = .ok (.scrld 0x7FFFFF) ∧
  decode 0x2900000001 = .ok (.dscbit 1) ∧ decode 0x32000003FF = .ok (.sgldb 1023) ∧
  decode 0x40FFFFFFFF = .ok (.cpaddr 0xFFFFFFFF) ∧ decode 0x430000000F = .ok (.cpldb 15) ∧
  decode 0xF000000013 = .ok (.rdreg 0x13)

/-! ### The whole machine -/

/-- From every state that meets the invariant a step gives a state that meets it. -/
def Obligations.EveryStepKeepsTheInvariant : Prop :=
  ∀ s t : State, s.Inv → step s = .next t → t.Inv

/-- The invariant holds after reset, for every image of less than `2^32` bytes and every pair of seeds. -/
def Obligations.ResetMeetsTheInvariant : Prop :=
  (∀ (image : List Byte) (a b : ShiftReg), image.length < 2 ^ 32 → (State.resetWith image a b).Inv) ∧ State.reset.Inv

/-- R10 (the column "W by"), R40: each register and memory is written by the operations listed for it and by no
other; no operation writes `SRC` or takes an input. -/
def Obligations.OnlyTheListedOperationsWrite : Prop :=
  ∀ (i : Instr) (s t : State), exec i s = .next t →
    (t.crc ≠ s.crc → i = .ckinit ∨ (∃ b, i = .ckupd b) ∨ i = .ckfin ∨ ∃ v, i = .ckld v) ∧
    (t.target ≠ s.target → ∃ v, i = .cktgt v) ∧
    (t.ncnt ≠ s.ncnt ∨ t.nonce ≠ s.nonce ∨ (∃ n, t.hitBit n ≠ s.hitBit n) → i = .cksolve ∨ i = .cpbuild) ∧
    (t.scr ≠ s.scr → (∃ v, i = .scrld v) ∨ ∃ b, i = .scrbit b) ∧
    (t.dsc ≠ s.dsc → (∃ v, i = .dscld v) ∨ ∃ b, i = .dscbit b) ∧
    (t.rst ≠ s.rst ∨ t.cur ≠ s.cur ∨ t.slen ≠ s.slen ∨ t.flags.segv ≠ s.flags.segv ∨ t.flags.ckok ≠ s.flags.ckok →
      i = .rdopen ∨ i = .rdnext) ∧
    (t.scrc ≠ s.scrc ∨ (∃ a, t.seg.read a ≠ s.seg.read a) → i = .rdnext) ∧
    (t.hcrc ≠ s.hcrc ∨ t.flags.hdrv ≠ s.flags.hdrv ∨ (∃ a, t.hdr.read a ≠ s.hdr.read a) → i = .cpbuild) ∧
    (t.boxaddr ≠ s.boxaddr → ∃ a, i = .cpaddr a) ∧ (t.tierval ≠ s.tierval → ∃ v, i = .cptier v) ∧
    t.src = s.src ∧ t.inputs = s.inputs

/-- R216: a refused command changes no state whatever; a terminal outcome of `RDNEXT` changes the status, `SLEN`,
`SEGV`, `CKOK` and at most the cursor, by a prefix of 2 bytes. -/
def Obligations.OutcomesArePrecise : Prop :=
  ∀ (i : Instr) (s t : State) (r : Response), exec i s = .next t → t.responses = r :: s.responses →
    (r.code ∈ [.errIllegalCmd, .errNoData, .errPrecondition, .errNotOpen] →
      t = { s with responses := r :: s.responses }) ∧
    (r.code ∈ [.eos, .errTooLarge, .errTruncated, .errTooShort] →
      i = .rdnext ∧ r.val = 0 ∧
      (t = { s with responses := r :: s.responses } ∨ t = s.endedAt s.cur t.rst r.code ∨
        t = s.endedAt (s.cur + 2) t.rst r.code))

/-- R73: every operation answers a next state with exactly one response more; the response word is the code above
the value, and a code with bit 7 set comes with the value 0. -/
def Obligations.EveryCommandAnswersOnce : Prop :=
  ∀ (i : Instr) (s : State), ∃ (t : State) (r : Response),
    exec i s = .next t ∧ t.responses = r :: s.responses ∧
    r.word.extractLsb' 32 8 = r.code.byte ∧ r.word.extractLsb' 0 32 = r.val ∧
    (r.word.getLsbD 39 = true → r.val = 0) ∧
    (r.word.getLsbD 39 = false ↔ r.code ∈ [.ok, .eos, .cksumMismatch])

/-- R23, R24, R26, R132, R175, R190 (U15, U16): two states that differ only in what no read can reach (`SEG` at and
above `SLEN`, all of `SEG` and `SCRC` with no segment, `HDR` and `HCRC` with no header) answer the same response to
every input and stay so. -/
def Obligations.UnreadableBytesCannotBeSeen : Prop :=
  ∀ s t : State, s.Inv → t.Inv → s.SameToHost t →
    ∃ s' t' : State, step s = .next s' ∧ step t = .next t' ∧ s'.SameToHost t' ∧ s'.responses = t'.responses

/-! ### Formats no operation evaluates (`20_memory.md` section 7) -/

/-- R56, R54, R55: a box address is valid exactly when bit 31 is set. An AND-mode tier grants exactly the receivers with
a set bit in common below bit 31, so `TIER_AND` nobody and `TIER_AND_MAX` every receiver with a low bit set; an XOR-mode
tier grants exactly the receiver that matches it, in 31 or in 32 bits by the parameter. -/
def Obligations.AddressAndTierPredicates : Prop :=
  (∀ a : Word, (addrValid a = true ↔ a.getLsbD 31 = true) ∧
    (addrIsBroadcast a = true ↔ a = 0xFFFFFFFF) ∧
    (addrIsUnicast a = true ↔ a.getLsbD 31 = true ∧ a ≠ 0xFFFFFFFF)) ∧
  (∀ (cmp : TierXorCompare) (t rx : Word), t.getLsbD 31 = false →
    (tierGrants cmp t rx = true ↔ ∃ i, i < 31 ∧ t.getLsbD i = true ∧ rx.getLsbD i = true)) ∧
  (∀ (cmp : TierXorCompare) (rx : Word),
    tierGrants cmp 0x00000000 rx = false ∧
    (tierGrants cmp 0x7FFFFFFF rx = true ↔ ∃ i, i < 31 ∧ rx.getLsbD i = true)) ∧
  (∀ t rx : Word, t.getLsbD 31 = true →
    (tierGrants .all32 t rx = true ↔ t = rx) ∧
    (tierGrants .low31 t rx = true ↔ ∀ i, i < 31 → t.getLsbD i = rx.getLsbD i))
end

