-- ==== Sys2Proof/Laws/Memory.lean ====
section
/-! SUPPORT. The byte memories: a read after a write, and that every memory operation keeps the canonical form. -/

namespace Sys2Proof.Machine

@[simp] theorem Memory.read_nil (a : Nat) : Memory.read [] a = 0 := rfl

theorem Memory.read_cons_entry (a a' : Nat) (v : Byte) (m : Memory) :
    Memory.read ((a, v) :: m) a' = if a = a' then v else Memory.read m a' := rfl

@[simp] theorem Memory.wf_nil (size : Nat) : Memory.wf size [] = true := rfl

theorem Memory.wfFrom_cons (size lo a : Nat) (v : Byte) (m : Memory) :
    Memory.wfFrom size lo ((a, v) :: m) = true ↔
      lo ≤ a ∧ a < size ∧ v ≠ Memory.unlisted ∧ Memory.wfFrom size (a + 1) m = true := by
  simp [Memory.wfFrom, and_assoc]

theorem Memory.wfFrom_mono {size lo lo' : Nat} {m : Memory} (h : Memory.wfFrom size lo m = true) (hle : lo' ≤ lo) :
    Memory.wfFrom size lo' m = true := by
  cases m with
  | nil => rfl
  | cons e m =>
    obtain ⟨h1, h2, h3, h4⟩ := (Memory.wfFrom_cons ..).1 h
    exact (Memory.wfFrom_cons ..).2 ⟨by omega, h2, h3, h4⟩

/-- An address below every listed one is unlisted. -/
theorem Memory.read_below {size lo a : Nat} {m : Memory} (h : Memory.wfFrom size lo m = true) (ha : a < lo) :
    Memory.read m a = Memory.unlisted := by
  induction m generalizing lo with
  | nil => rfl
  | cons e m ih =>
    obtain ⟨h1, -, -, h4⟩ := (Memory.wfFrom_cons ..).1 h
    rw [Memory.read_cons_entry, if_neg (by omega)]
    exact ih h4 (by omega)

theorem Memory.wfFrom_cons_op {size lo a : Nat} {v : Byte} {m : Memory} (hlo : lo ≤ a) (ha : a < size)
    (h : Memory.wfFrom size (a + 1) m = true) : Memory.wfFrom size lo (Memory.cons a v m) = true := by
  unfold Memory.cons
  split
  · exact Memory.wfFrom_mono h (by omega)
  · exact (Memory.wfFrom_cons ..).2 ⟨hlo, ha, ‹_›, h⟩

/-- A write inside the memory keeps the canonical form. -/
theorem Memory.wfFrom_write {size lo a : Nat} {v : Byte} {m : Memory} (h : Memory.wfFrom size lo m = true)
    (hlo : lo ≤ a) (ha : a < size) : Memory.wfFrom size lo (Memory.write m a v) = true := by
  induction m generalizing lo with
  | nil => exact Memory.wfFrom_cons_op hlo ha rfl
  | cons e m ih =>
    obtain ⟨h1, h2, h3, h4⟩ := (Memory.wfFrom_cons ..).1 h
    rw [Memory.write]
    split
    · exact Memory.wfFrom_cons_op hlo ha ((Memory.wfFrom_cons ..).2 ⟨by omega, h2, h3, h4⟩)
    · split
      · subst_vars
        exact Memory.wfFrom_cons_op hlo ha h4
      · exact (Memory.wfFrom_cons ..).2 ⟨h1, h2, h3, ih h4 (by omega)⟩

theorem Memory.wf_write {size a : Nat} {v : Byte} {m : Memory} (h : Memory.wf size m = true) (ha : a < size) :
    Memory.wf size (Memory.write m a v) = true :=
  Memory.wfFrom_write h (Nat.zero_le _) ha

/-- A block of bytes written inside the memory keeps the canonical form. -/
theorem Memory.wf_writeBytes {size : Nat} {m : Memory} (h : Memory.wf size m = true) (bs : List Byte) :
    ∀ a, a + bs.length ≤ size → Memory.wf size (Memory.writeBytes m a bs) = true := by
  induction bs with
  | nil => exact fun _ _ => h
  | cons b bs ih =>
    intro a ha
    simp only [List.length_cons] at ha
    exact Memory.wf_write (ih (a + 1) (by omega)) (by omega)

theorem Memory.read_cons_op {size a : Nat} (v : Byte) {m : Memory} (h : Memory.wfFrom size (a + 1) m = true)
    (a' : Nat) : Memory.read (Memory.cons a v m) a' = if a = a' then v else Memory.read m a' := by
  unfold Memory.cons
  split
  · split
    · subst_vars
      exact Memory.read_below h (by omega)
    · rfl
  · rfl

/-- A read after a write: the byte written at its address, every other byte as before. -/
theorem Memory.read_write {size : Nat} {m : Memory} (h : Memory.wf size m = true) (a : Nat) (v : Byte) (a' : Nat) :
    Memory.read (Memory.write m a v) a' = if a = a' then v else Memory.read m a' := by
  suffices ∀ lo, Memory.wfFrom size lo m = true →
      Memory.read (Memory.write m a v) a' = if a = a' then v else Memory.read m a' from this 0 h
  clear h
  induction m with
  | nil => exact fun _ _ => Memory.read_cons_op v (size := 0) (m := []) rfl a'
  | cons e m ih =>
    intro lo h
    obtain ⟨h1, h2, h3, h4⟩ := (Memory.wfFrom_cons ..).1 h
    rw [Memory.write]
    split
    · exact Memory.read_cons_op v (size := size) ((Memory.wfFrom_cons ..).2 ⟨by omega, h2, h3, h4⟩) a'
    · split
      · subst_vars
        rw [Memory.read_cons_op v h4, Memory.read_cons_entry]
        split <;> rfl
      · rw [Memory.read_cons_entry, Memory.read_cons_entry, ih _ h4]
        split
        · rw [if_neg (by omega)]
        · rfl

/-- A read after a block write: the block's byte inside the block, every other byte as before. -/
theorem Memory.read_writeBytes {size : Nat} {m : Memory} (h : Memory.wf size m = true) (bs : List Byte) :
    ∀ a a', a + bs.length ≤ size →
      Memory.read (Memory.writeBytes m a bs) a' =
        if a ≤ a' ∧ a' < a + bs.length then bs.getD (a' - a) 0 else Memory.read m a' := by
  induction bs with
  | nil => intro a a' _; rw [if_neg (by simp only [List.length_nil]; omega)]; rfl
  | cons b bs ih =>
    intro a a' ha
    simp only [List.length_cons] at ha ⊢
    rw [Memory.writeBytes, Memory.read_write (Memory.wf_writeBytes h bs (a + 1) (by omega)), ih _ _ (by omega)]
    by_cases hb : a = a'
    · subst hb
      rw [if_pos rfl, if_pos (by omega), Nat.sub_self]
      rfl
    · rw [if_neg hb]
      by_cases hc : a + 1 ≤ a' ∧ a' < a + 1 + bs.length
      · rw [if_pos hc, if_pos (by omega), show a' - a = a' - (a + 1) + 1 by omega]
        rfl
      · rw [if_neg hc, if_neg (by omega)]

@[simp] theorem Memory.length_readBytes (m : Memory) (a n : Nat) : (Memory.readBytes m a n).length = n := by
  induction n generalizing a with
  | zero => rfl
  | succ n ih => simp [Memory.readBytes, ih]

theorem Memory.getD_readBytes (m : Memory) (a n i : Nat) (hi : i < n) :
    (Memory.readBytes m a n).getD i 0 = Memory.read m (a + i) := by
  induction n generalizing a i with
  | zero => omega
  | succ n ih =>
    cases i with
    | zero => rfl
    | succ i =>
      rw [Memory.readBytes, List.getD_cons_succ, ih (a + 1) i (by omega)]
      congr 1
      omega

/-- Reading back a block just written gives the block. -/
theorem Memory.readBytes_writeBytes {size : Nat} {m : Memory} (h : Memory.wf size m = true) (bs : List Byte)
    (a n : Nat) (ha : a + bs.length ≤ size) (hn : n ≤ bs.length) :
    Memory.readBytes (Memory.writeBytes m a bs) a n = bs.take n := by
  apply List.ext_getElem
  · simp; omega
  · intro i h1 h2
    simp only [Memory.length_readBytes] at h1
    have h3 : i < bs.length := by omega
    have := Memory.getD_readBytes (Memory.writeBytes m a bs) a n i h1
    rw [List.getD_eq_getElem _ _ (by simpa using h1)] at this
    rw [this, Memory.read_writeBytes h bs a _ ha, if_pos (by omega), Nat.add_sub_cancel_left,
      List.getD_eq_getElem _ _ h3, List.getElem_take]

end Sys2Proof.Machine
end

