-- ==== Sys2Proof/Laws/State.lean ====
section
/-! SUPPORT. One lemma per field of State per update the operations make, true by rfl, so that no later proof
unfolds a record update. -/

namespace Sys2Proof.Machine

/-! ### `Flags` -/

@[simp] theorem Flags.yielded_segv (f : Flags) (m : Bool) : (f.yielded m).segv = true := rfl
@[simp] theorem Flags.yielded_ckok (f : Flags) (m : Bool) : (f.yielded m).ckok = m := rfl
@[simp] theorem Flags.yielded_hdrv (f : Flags) (m : Bool) : (f.yielded m).hdrv = f.hdrv := rfl
@[simp] theorem Flags.noSegment_segv (f : Flags) : f.noSegment.segv = false := rfl
@[simp] theorem Flags.noSegment_ckok (f : Flags) : f.noSegment.ckok = false := rfl
@[simp] theorem Flags.noSegment_hdrv (f : Flags) : f.noSegment.hdrv = f.hdrv := rfl
@[simp] theorem Flags.built_segv (f : Flags) : f.built.segv = f.segv := rfl
@[simp] theorem Flags.built_ckok (f : Flags) : f.built.ckok = f.ckok := rfl
@[simp] theorem Flags.built_hdrv (f : Flags) : f.built.hdrv = true := rfl

/-! ### `State.answer` -/

@[simp] theorem State.answer_crc (s : State) (c : Code) (v : Word) : (s.answer c v).crc = s.crc := rfl
@[simp] theorem State.answer_target (s : State) (c : Code) (v : Word) : (s.answer c v).target = s.target := rfl
@[simp] theorem State.answer_ncnt (s : State) (c : Code) (v : Word) : (s.answer c v).ncnt = s.ncnt := rfl
@[simp] theorem State.answer_nonce (s : State) (c : Code) (v : Word) : (s.answer c v).nonce = s.nonce := rfl
@[simp] theorem State.answer_hitmap (s : State) (c : Code) (v : Word) : (s.answer c v).hitmap = s.hitmap := rfl
@[simp] theorem State.answer_scr (s : State) (c : Code) (v : Word) : (s.answer c v).scr = s.scr := rfl
@[simp] theorem State.answer_dsc (s : State) (c : Code) (v : Word) : (s.answer c v).dsc = s.dsc := rfl
@[simp] theorem State.answer_rst (s : State) (c : Code) (v : Word) : (s.answer c v).rst = s.rst := rfl
@[simp] theorem State.answer_cur (s : State) (c : Code) (v : Word) : (s.answer c v).cur = s.cur := rfl
@[simp] theorem State.answer_slen (s : State) (c : Code) (v : Word) : (s.answer c v).slen = s.slen := rfl
@[simp] theorem State.answer_flags (s : State) (c : Code) (v : Word) : (s.answer c v).flags = s.flags := rfl
@[simp] theorem State.answer_scrc (s : State) (c : Code) (v : Word) : (s.answer c v).scrc = s.scrc := rfl
@[simp] theorem State.answer_seg (s : State) (c : Code) (v : Word) : (s.answer c v).seg = s.seg := rfl
@[simp] theorem State.answer_boxaddr (s : State) (c : Code) (v : Word) : (s.answer c v).boxaddr = s.boxaddr := rfl
@[simp] theorem State.answer_tierval (s : State) (c : Code) (v : Word) : (s.answer c v).tierval = s.tierval := rfl
@[simp] theorem State.answer_hdr (s : State) (c : Code) (v : Word) : (s.answer c v).hdr = s.hdr := rfl
@[simp] theorem State.answer_hcrc (s : State) (c : Code) (v : Word) : (s.answer c v).hcrc = s.hcrc := rfl
@[simp] theorem State.answer_src (s : State) (c : Code) (v : Word) : (s.answer c v).src = s.src := rfl
@[simp] theorem State.answer_inputs (s : State) (c : Code) (v : Word) : (s.answer c v).inputs = s.inputs := rfl
@[simp] theorem State.answer_responses (s : State) (c : Code) (v : Word) : (s.answer c v).responses = ⟨c, v⟩ :: s.responses :=
  rfl

/-! ### `State.illegalCommand` -/

@[simp] theorem State.illegalCommand_crc (s : State) : (s.illegalCommand).crc = s.crc := rfl
@[simp] theorem State.illegalCommand_target (s : State) : (s.illegalCommand).target = s.target := rfl
@[simp] theorem State.illegalCommand_ncnt (s : State) : (s.illegalCommand).ncnt = s.ncnt := rfl
@[simp] theorem State.illegalCommand_nonce (s : State) : (s.illegalCommand).nonce = s.nonce := rfl
@[simp] theorem State.illegalCommand_hitmap (s : State) : (s.illegalCommand).hitmap = s.hitmap := rfl
@[simp] theorem State.illegalCommand_scr (s : State) : (s.illegalCommand).scr = s.scr := rfl
@[simp] theorem State.illegalCommand_dsc (s : State) : (s.illegalCommand).dsc = s.dsc := rfl
@[simp] theorem State.illegalCommand_rst (s : State) : (s.illegalCommand).rst = s.rst := rfl
@[simp] theorem State.illegalCommand_cur (s : State) : (s.illegalCommand).cur = s.cur := rfl
@[simp] theorem State.illegalCommand_slen (s : State) : (s.illegalCommand).slen = s.slen := rfl
@[simp] theorem State.illegalCommand_flags (s : State) : (s.illegalCommand).flags = s.flags := rfl
@[simp] theorem State.illegalCommand_scrc (s : State) : (s.illegalCommand).scrc = s.scrc := rfl
@[simp] theorem State.illegalCommand_seg (s : State) : (s.illegalCommand).seg = s.seg := rfl
@[simp] theorem State.illegalCommand_boxaddr (s : State) : (s.illegalCommand).boxaddr = s.boxaddr := rfl
@[simp] theorem State.illegalCommand_tierval (s : State) : (s.illegalCommand).tierval = s.tierval := rfl
@[simp] theorem State.illegalCommand_hdr (s : State) : (s.illegalCommand).hdr = s.hdr := rfl
@[simp] theorem State.illegalCommand_hcrc (s : State) : (s.illegalCommand).hcrc = s.hcrc := rfl
@[simp] theorem State.illegalCommand_src (s : State) : (s.illegalCommand).src = s.src := rfl
@[simp] theorem State.illegalCommand_inputs (s : State) : (s.illegalCommand).inputs = s.inputs := rfl
@[simp] theorem State.illegalCommand_responses (s : State) : (s.illegalCommand).responses = ⟨.errIllegalCmd, 0⟩ :: s.responses :=
  rfl

/-! ### `State.offer` -/

@[simp] theorem State.offer_crc (s : State) (w : Word40) : (s.offer w).crc = s.crc := rfl
@[simp] theorem State.offer_target (s : State) (w : Word40) : (s.offer w).target = s.target := rfl
@[simp] theorem State.offer_ncnt (s : State) (w : Word40) : (s.offer w).ncnt = s.ncnt := rfl
@[simp] theorem State.offer_nonce (s : State) (w : Word40) : (s.offer w).nonce = s.nonce := rfl
@[simp] theorem State.offer_hitmap (s : State) (w : Word40) : (s.offer w).hitmap = s.hitmap := rfl
@[simp] theorem State.offer_scr (s : State) (w : Word40) : (s.offer w).scr = s.scr := rfl
@[simp] theorem State.offer_dsc (s : State) (w : Word40) : (s.offer w).dsc = s.dsc := rfl
@[simp] theorem State.offer_rst (s : State) (w : Word40) : (s.offer w).rst = s.rst := rfl
@[simp] theorem State.offer_cur (s : State) (w : Word40) : (s.offer w).cur = s.cur := rfl
@[simp] theorem State.offer_slen (s : State) (w : Word40) : (s.offer w).slen = s.slen := rfl
@[simp] theorem State.offer_flags (s : State) (w : Word40) : (s.offer w).flags = s.flags := rfl
@[simp] theorem State.offer_scrc (s : State) (w : Word40) : (s.offer w).scrc = s.scrc := rfl
@[simp] theorem State.offer_seg (s : State) (w : Word40) : (s.offer w).seg = s.seg := rfl
@[simp] theorem State.offer_boxaddr (s : State) (w : Word40) : (s.offer w).boxaddr = s.boxaddr := rfl
@[simp] theorem State.offer_tierval (s : State) (w : Word40) : (s.offer w).tierval = s.tierval := rfl
@[simp] theorem State.offer_hdr (s : State) (w : Word40) : (s.offer w).hdr = s.hdr := rfl
@[simp] theorem State.offer_hcrc (s : State) (w : Word40) : (s.offer w).hcrc = s.hcrc := rfl
@[simp] theorem State.offer_src (s : State) (w : Word40) : (s.offer w).src = s.src := rfl
@[simp] theorem State.offer_inputs (s : State) (w : Word40) : (s.offer w).inputs = .command w :: s.inputs := rfl
@[simp] theorem State.offer_responses (s : State) (w : Word40) : (s.offer w).responses = s.responses := rfl

/-! ### `State.resetEvent` -/

@[simp] theorem State.resetEvent_crc (s : State) : (s.resetEvent).crc = 0xFFFF := rfl
@[simp] theorem State.resetEvent_target (s : State) : (s.resetEvent).target = 0x1D0F := rfl
@[simp] theorem State.resetEvent_ncnt (s : State) : (s.resetEvent).ncnt = 0 := rfl
@[simp] theorem State.resetEvent_nonce (s : State) : (s.resetEvent).nonce = 0 := rfl
@[simp] theorem State.resetEvent_hitmap (s : State) : (s.resetEvent).hitmap = [] := rfl
@[simp] theorem State.resetEvent_scr (s : State) : (s.resetEvent).scr = Config.seedS := rfl
@[simp] theorem State.resetEvent_dsc (s : State) : (s.resetEvent).dsc = Config.seedD := rfl
@[simp] theorem State.resetEvent_rst (s : State) : (s.resetEvent).rst = .closed := rfl
@[simp] theorem State.resetEvent_cur (s : State) : (s.resetEvent).cur = 0 := rfl
@[simp] theorem State.resetEvent_slen (s : State) : (s.resetEvent).slen = 0 := rfl
@[simp] theorem State.resetEvent_flags (s : State) : (s.resetEvent).flags = ⟨false, false, false⟩ := rfl
@[simp] theorem State.resetEvent_scrc (s : State) : (s.resetEvent).scrc = 0 := rfl
@[simp] theorem State.resetEvent_seg (s : State) : (s.resetEvent).seg = [] := rfl
@[simp] theorem State.resetEvent_boxaddr (s : State) : (s.resetEvent).boxaddr = 0 := rfl
@[simp] theorem State.resetEvent_tierval (s : State) : (s.resetEvent).tierval = 0 := rfl
@[simp] theorem State.resetEvent_hdr (s : State) : (s.resetEvent).hdr = [] := rfl
@[simp] theorem State.resetEvent_hcrc (s : State) : (s.resetEvent).hcrc = 0 := rfl
@[simp] theorem State.resetEvent_src (s : State) : (s.resetEvent).src = s.src := rfl
@[simp] theorem State.resetEvent_inputs (s : State) : (s.resetEvent).inputs = s.inputs := rfl
@[simp] theorem State.resetEvent_responses (s : State) : (s.resetEvent).responses = s.responses := rfl

/-! ### `State.recordHits` -/

@[simp] theorem State.recordHits_crc (s : State) (h : List Nat) : (s.recordHits h).crc = s.crc := rfl
@[simp] theorem State.recordHits_target (s : State) (h : List Nat) : (s.recordHits h).target = s.target := rfl
@[simp] theorem State.recordHits_ncnt (s : State) (h : List Nat) : (s.recordHits h).ncnt = BitVec.ofNat 17 h.length :=
  rfl
@[simp] theorem State.recordHits_nonce (s : State) (h : List Nat) : (s.recordHits h).nonce = BitVec.ofNat 16 (h.headD 0) :=
  rfl
@[simp] theorem State.recordHits_hitmap (s : State) (h : List Nat) : (s.recordHits h).hitmap = h := rfl
@[simp] theorem State.recordHits_scr (s : State) (h : List Nat) : (s.recordHits h).scr = s.scr := rfl
@[simp] theorem State.recordHits_dsc (s : State) (h : List Nat) : (s.recordHits h).dsc = s.dsc := rfl
@[simp] theorem State.recordHits_rst (s : State) (h : List Nat) : (s.recordHits h).rst = s.rst := rfl
@[simp] theorem State.recordHits_cur (s : State) (h : List Nat) : (s.recordHits h).cur = s.cur := rfl
@[simp] theorem State.recordHits_slen (s : State) (h : List Nat) : (s.recordHits h).slen = s.slen := rfl
@[simp] theorem State.recordHits_flags (s : State) (h : List Nat) : (s.recordHits h).flags = s.flags := rfl
@[simp] theorem State.recordHits_scrc (s : State) (h : List Nat) : (s.recordHits h).scrc = s.scrc := rfl
@[simp] theorem State.recordHits_seg (s : State) (h : List Nat) : (s.recordHits h).seg = s.seg := rfl
@[simp] theorem State.recordHits_boxaddr (s : State) (h : List Nat) : (s.recordHits h).boxaddr = s.boxaddr := rfl
@[simp] theorem State.recordHits_tierval (s : State) (h : List Nat) : (s.recordHits h).tierval = s.tierval := rfl
@[simp] theorem State.recordHits_hdr (s : State) (h : List Nat) : (s.recordHits h).hdr = s.hdr := rfl
@[simp] theorem State.recordHits_hcrc (s : State) (h : List Nat) : (s.recordHits h).hcrc = s.hcrc := rfl
@[simp] theorem State.recordHits_src (s : State) (h : List Nat) : (s.recordHits h).src = s.src := rfl
@[simp] theorem State.recordHits_inputs (s : State) (h : List Nat) : (s.recordHits h).inputs = s.inputs := rfl
@[simp] theorem State.recordHits_responses (s : State) (h : List Nat) : (s.recordHits h).responses = s.responses :=
  rfl

/-! ### `State.search` -/

@[simp] theorem State.search_crc (s : State) (c : Half) : (s.search c).crc = s.crc := State.recordHits_crc _ _
@[simp] theorem State.search_target (s : State) (c : Half) : (s.search c).target = s.target :=
  State.recordHits_target _ _
@[simp] theorem State.search_ncnt (s : State) (c : Half) : (s.search c).ncnt = BitVec.ofNat 17 (s.hitsFrom c).length :=
  State.recordHits_ncnt _ _
@[simp] theorem State.search_nonce (s : State) (c : Half) : (s.search c).nonce = BitVec.ofNat 16 ((s.hitsFrom c).headD 0) :=
  State.recordHits_nonce _ _
@[simp] theorem State.search_hitmap (s : State) (c : Half) : (s.search c).hitmap = s.hitsFrom c :=
  State.recordHits_hitmap _ _
@[simp] theorem State.search_scr (s : State) (c : Half) : (s.search c).scr = s.scr := State.recordHits_scr _ _
@[simp] theorem State.search_dsc (s : State) (c : Half) : (s.search c).dsc = s.dsc := State.recordHits_dsc _ _
@[simp] theorem State.search_rst (s : State) (c : Half) : (s.search c).rst = s.rst := State.recordHits_rst _ _
@[simp] theorem State.search_cur (s : State) (c : Half) : (s.search c).cur = s.cur := State.recordHits_cur _ _
@[simp] theorem State.search_slen (s : State) (c : Half) : (s.search c).slen = s.slen := State.recordHits_slen _ _
@[simp] theorem State.search_flags (s : State) (c : Half) : (s.search c).flags = s.flags := State.recordHits_flags _ _
@[simp] theorem State.search_scrc (s : State) (c : Half) : (s.search c).scrc = s.scrc := State.recordHits_scrc _ _
@[simp] theorem State.search_seg (s : State) (c : Half) : (s.search c).seg = s.seg := State.recordHits_seg _ _
@[simp] theorem State.search_boxaddr (s : State) (c : Half) : (s.search c).boxaddr = s.boxaddr :=
  State.recordHits_boxaddr _ _
@[simp] theorem State.search_tierval (s : State) (c : Half) : (s.search c).tierval = s.tierval :=
  State.recordHits_tierval _ _
@[simp] theorem State.search_hdr (s : State) (c : Half) : (s.search c).hdr = s.hdr := State.recordHits_hdr _ _
@[simp] theorem State.search_hcrc (s : State) (c : Half) : (s.search c).hcrc = s.hcrc := State.recordHits_hcrc _ _
@[simp] theorem State.search_src (s : State) (c : Half) : (s.search c).src = s.src := State.recordHits_src _ _
@[simp] theorem State.search_inputs (s : State) (c : Half) : (s.search c).inputs = s.inputs :=
  State.recordHits_inputs _ _
@[simp] theorem State.search_responses (s : State) (c : Half) : (s.search c).responses = s.responses :=
  State.recordHits_responses _ _

/-! ### `State.buildHeader` -/

@[simp] theorem State.buildHeader_crc (s : State) : (s.buildHeader).crc = s.crc := rfl
@[simp] theorem State.buildHeader_target (s : State) : (s.buildHeader).target = s.target := rfl
@[simp] theorem State.buildHeader_ncnt (s : State) : (s.buildHeader).ncnt = s.ncnt := rfl
@[simp] theorem State.buildHeader_nonce (s : State) : (s.buildHeader).nonce = s.nonce := rfl
@[simp] theorem State.buildHeader_hitmap (s : State) : (s.buildHeader).hitmap = s.hitmap := rfl
@[simp] theorem State.buildHeader_scr (s : State) : (s.buildHeader).scr = s.scr := rfl
@[simp] theorem State.buildHeader_dsc (s : State) : (s.buildHeader).dsc = s.dsc := rfl
@[simp] theorem State.buildHeader_rst (s : State) : (s.buildHeader).rst = s.rst := rfl
@[simp] theorem State.buildHeader_cur (s : State) : (s.buildHeader).cur = s.cur := rfl
@[simp] theorem State.buildHeader_slen (s : State) : (s.buildHeader).slen = s.slen := rfl
@[simp] theorem State.buildHeader_flags (s : State) : (s.buildHeader).flags = s.flags.built := rfl
@[simp] theorem State.buildHeader_scrc (s : State) : (s.buildHeader).scrc = s.scrc := rfl
@[simp] theorem State.buildHeader_seg (s : State) : (s.buildHeader).seg = s.seg := rfl
@[simp] theorem State.buildHeader_boxaddr (s : State) : (s.buildHeader).boxaddr = s.boxaddr := rfl
@[simp] theorem State.buildHeader_tierval (s : State) : (s.buildHeader).tierval = s.tierval := rfl
@[simp] theorem State.buildHeader_hdr (s : State) : (s.buildHeader).hdr = s.builtHdr := by
  rw [State.buildHeader]
@[simp] theorem State.buildHeader_hcrc (s : State) : (s.buildHeader).hcrc = s.builtHcrc := by
  rw [State.buildHeader]
@[simp] theorem State.buildHeader_src (s : State) : (s.buildHeader).src = s.src := rfl
@[simp] theorem State.buildHeader_inputs (s : State) : (s.buildHeader).inputs = s.inputs := rfl
@[simp] theorem State.buildHeader_responses (s : State) : (s.buildHeader).responses = s.responses := rfl

/-! ### `State.buildPacket` -/

@[simp] theorem State.buildPacket_crc (s : State) : (s.buildPacket).crc = s.crc :=
  (State.search_crc _ _).trans (State.buildHeader_crc s)
@[simp] theorem State.buildPacket_target (s : State) : (s.buildPacket).target = s.target :=
  (State.search_target _ _).trans (State.buildHeader_target s)
@[simp] theorem State.buildPacket_ncnt (s : State) : (s.buildPacket).ncnt = BitVec.ofNat 17 (s.hitsFrom s.builtHcrc).length :=
  State.search_ncnt s.buildHeader s.builtHcrc
@[simp] theorem State.buildPacket_nonce (s : State) : (s.buildPacket).nonce = BitVec.ofNat 16 ((s.hitsFrom s.builtHcrc).headD 0) :=
  State.search_nonce s.buildHeader s.builtHcrc
@[simp] theorem State.buildPacket_hitmap (s : State) : (s.buildPacket).hitmap = s.hitsFrom s.builtHcrc :=
  State.search_hitmap s.buildHeader s.builtHcrc
@[simp] theorem State.buildPacket_scr (s : State) : (s.buildPacket).scr = s.scr :=
  (State.search_scr _ _).trans (State.buildHeader_scr s)
@[simp] theorem State.buildPacket_dsc (s : State) : (s.buildPacket).dsc = s.dsc :=
  (State.search_dsc _ _).trans (State.buildHeader_dsc s)
@[simp] theorem State.buildPacket_rst (s : State) : (s.buildPacket).rst = s.rst :=
  (State.search_rst _ _).trans (State.buildHeader_rst s)
@[simp] theorem State.buildPacket_cur (s : State) : (s.buildPacket).cur = s.cur :=
  (State.search_cur _ _).trans (State.buildHeader_cur s)
@[simp] theorem State.buildPacket_slen (s : State) : (s.buildPacket).slen = s.slen :=
  (State.search_slen _ _).trans (State.buildHeader_slen s)
@[simp] theorem State.buildPacket_flags (s : State) : (s.buildPacket).flags = s.flags.built :=
  (State.search_flags _ _).trans (State.buildHeader_flags s)
@[simp] theorem State.buildPacket_scrc (s : State) : (s.buildPacket).scrc = s.scrc :=
  (State.search_scrc _ _).trans (State.buildHeader_scrc s)
@[simp] theorem State.buildPacket_seg (s : State) : (s.buildPacket).seg = s.seg :=
  (State.search_seg _ _).trans (State.buildHeader_seg s)
@[simp] theorem State.buildPacket_boxaddr (s : State) : (s.buildPacket).boxaddr = s.boxaddr :=
  (State.search_boxaddr _ _).trans (State.buildHeader_boxaddr s)
@[simp] theorem State.buildPacket_tierval (s : State) : (s.buildPacket).tierval = s.tierval :=
  (State.search_tierval _ _).trans (State.buildHeader_tierval s)
@[simp] theorem State.buildPacket_hdr (s : State) : (s.buildPacket).hdr = s.builtHdr :=
  (State.search_hdr _ _).trans (State.buildHeader_hdr s)
@[simp] theorem State.buildPacket_hcrc (s : State) : (s.buildPacket).hcrc = s.builtHcrc :=
  (State.search_hcrc _ _).trans (State.buildHeader_hcrc s)
@[simp] theorem State.buildPacket_src (s : State) : (s.buildPacket).src = s.src :=
  (State.search_src _ _).trans (State.buildHeader_src s)
@[simp] theorem State.buildPacket_inputs (s : State) : (s.buildPacket).inputs = s.inputs :=
  (State.search_inputs _ _).trans (State.buildHeader_inputs s)
@[simp] theorem State.buildPacket_responses (s : State) : (s.buildPacket).responses = s.responses :=
  (State.search_responses _ _).trans (State.buildHeader_responses s)

/-! ### `State.yieldSegment` -/

@[simp] theorem State.yieldSegment_crc (s : State) (n : Nat) : (s.yieldSegment n).crc = s.crc := rfl
@[simp] theorem State.yieldSegment_target (s : State) (n : Nat) : (s.yieldSegment n).target = s.target := rfl
@[simp] theorem State.yieldSegment_ncnt (s : State) (n : Nat) : (s.yieldSegment n).ncnt = s.ncnt := rfl
@[simp] theorem State.yieldSegment_nonce (s : State) (n : Nat) : (s.yieldSegment n).nonce = s.nonce := rfl
@[simp] theorem State.yieldSegment_hitmap (s : State) (n : Nat) : (s.yieldSegment n).hitmap = s.hitmap := rfl
@[simp] theorem State.yieldSegment_scr (s : State) (n : Nat) : (s.yieldSegment n).scr = s.scr := rfl
@[simp] theorem State.yieldSegment_dsc (s : State) (n : Nat) : (s.yieldSegment n).dsc = s.dsc := rfl
@[simp] theorem State.yieldSegment_rst (s : State) (n : Nat) : (s.yieldSegment n).rst = s.rst := rfl
@[simp] theorem State.yieldSegment_cur (s : State) (n : Nat) : (s.yieldSegment n).cur = s.cur + BitVec.ofNat 32 n :=
  rfl
@[simp] theorem State.yieldSegment_slen (s : State) (n : Nat) : (s.yieldSegment n).slen = BitVec.ofNat 11 n := rfl
@[simp] theorem State.yieldSegment_flags (s : State) (n : Nat) : (s.yieldSegment n).flags = s.flags.yielded (s.yieldedMatch n) := by
  rw [State.yieldSegment]
@[simp] theorem State.yieldSegment_scrc (s : State) (n : Nat) : (s.yieldSegment n).scrc = s.yieldedScrc n := by
  rw [State.yieldSegment]
@[simp] theorem State.yieldSegment_seg (s : State) (n : Nat) : (s.yieldSegment n).seg = s.yieldedSeg n := by
  rw [State.yieldSegment]
@[simp] theorem State.yieldSegment_boxaddr (s : State) (n : Nat) : (s.yieldSegment n).boxaddr = s.boxaddr := rfl
@[simp] theorem State.yieldSegment_tierval (s : State) (n : Nat) : (s.yieldSegment n).tierval = s.tierval := rfl
@[simp] theorem State.yieldSegment_hdr (s : State) (n : Nat) : (s.yieldSegment n).hdr = s.hdr := rfl
@[simp] theorem State.yieldSegment_hcrc (s : State) (n : Nat) : (s.yieldSegment n).hcrc = s.hcrc := rfl
@[simp] theorem State.yieldSegment_src (s : State) (n : Nat) : (s.yieldSegment n).src = s.src := rfl
@[simp] theorem State.yieldSegment_inputs (s : State) (n : Nat) : (s.yieldSegment n).inputs = s.inputs := rfl
@[simp] theorem State.yieldSegment_responses (s : State) (n : Nat) : (s.yieldSegment n).responses = s.responses := rfl

/-! ### `State.advance` -/

@[simp] theorem State.advance_crc (s : State) (n : Nat) : (s.advance n).crc = s.crc := rfl
@[simp] theorem State.advance_target (s : State) (n : Nat) : (s.advance n).target = s.target := rfl
@[simp] theorem State.advance_ncnt (s : State) (n : Nat) : (s.advance n).ncnt = s.ncnt := rfl
@[simp] theorem State.advance_nonce (s : State) (n : Nat) : (s.advance n).nonce = s.nonce := rfl
@[simp] theorem State.advance_hitmap (s : State) (n : Nat) : (s.advance n).hitmap = s.hitmap := rfl
@[simp] theorem State.advance_scr (s : State) (n : Nat) : (s.advance n).scr = s.scr := rfl
@[simp] theorem State.advance_dsc (s : State) (n : Nat) : (s.advance n).dsc = s.dsc := rfl
@[simp] theorem State.advance_rst (s : State) (n : Nat) : (s.advance n).rst = s.rst := rfl
@[simp] theorem State.advance_cur (s : State) (n : Nat) : (s.advance n).cur = s.cur + BitVec.ofNat 32 n := rfl
@[simp] theorem State.advance_slen (s : State) (n : Nat) : (s.advance n).slen = s.slen := rfl
@[simp] theorem State.advance_flags (s : State) (n : Nat) : (s.advance n).flags = s.flags := rfl
@[simp] theorem State.advance_scrc (s : State) (n : Nat) : (s.advance n).scrc = s.scrc := rfl
@[simp] theorem State.advance_seg (s : State) (n : Nat) : (s.advance n).seg = s.seg := rfl
@[simp] theorem State.advance_boxaddr (s : State) (n : Nat) : (s.advance n).boxaddr = s.boxaddr := rfl
@[simp] theorem State.advance_tierval (s : State) (n : Nat) : (s.advance n).tierval = s.tierval := rfl
@[simp] theorem State.advance_hdr (s : State) (n : Nat) : (s.advance n).hdr = s.hdr := rfl
@[simp] theorem State.advance_hcrc (s : State) (n : Nat) : (s.advance n).hcrc = s.hcrc := rfl
@[simp] theorem State.advance_src (s : State) (n : Nat) : (s.advance n).src = s.src := rfl
@[simp] theorem State.advance_inputs (s : State) (n : Nat) : (s.advance n).inputs = s.inputs := rfl
@[simp] theorem State.advance_responses (s : State) (n : Nat) : (s.advance n).responses = s.responses := rfl

/-! ### `State.terminated` -/

@[simp] theorem State.terminated_crc (s : State) (r : Rst) : (s.terminated r).crc = s.crc := rfl
@[simp] theorem State.terminated_target (s : State) (r : Rst) : (s.terminated r).target = s.target := rfl
@[simp] theorem State.terminated_ncnt (s : State) (r : Rst) : (s.terminated r).ncnt = s.ncnt := rfl
@[simp] theorem State.terminated_nonce (s : State) (r : Rst) : (s.terminated r).nonce = s.nonce := rfl
@[simp] theorem State.terminated_hitmap (s : State) (r : Rst) : (s.terminated r).hitmap = s.hitmap := rfl
@[simp] theorem State.terminated_scr (s : State) (r : Rst) : (s.terminated r).scr = s.scr := rfl
@[simp] theorem State.terminated_dsc (s : State) (r : Rst) : (s.terminated r).dsc = s.dsc := rfl
@[simp] theorem State.terminated_rst (s : State) (r : Rst) : (s.terminated r).rst = r := rfl
@[simp] theorem State.terminated_cur (s : State) (r : Rst) : (s.terminated r).cur = s.cur := rfl
@[simp] theorem State.terminated_slen (s : State) (r : Rst) : (s.terminated r).slen = 0 := rfl
@[simp] theorem State.terminated_flags (s : State) (r : Rst) : (s.terminated r).flags = s.flags.noSegment := rfl
@[simp] theorem State.terminated_scrc (s : State) (r : Rst) : (s.terminated r).scrc = s.scrc := rfl
@[simp] theorem State.terminated_seg (s : State) (r : Rst) : (s.terminated r).seg = s.seg := rfl
@[simp] theorem State.terminated_boxaddr (s : State) (r : Rst) : (s.terminated r).boxaddr = s.boxaddr := rfl
@[simp] theorem State.terminated_tierval (s : State) (r : Rst) : (s.terminated r).tierval = s.tierval := rfl
@[simp] theorem State.terminated_hdr (s : State) (r : Rst) : (s.terminated r).hdr = s.hdr := rfl
@[simp] theorem State.terminated_hcrc (s : State) (r : Rst) : (s.terminated r).hcrc = s.hcrc := rfl
@[simp] theorem State.terminated_src (s : State) (r : Rst) : (s.terminated r).src = s.src := rfl
@[simp] theorem State.terminated_inputs (s : State) (r : Rst) : (s.terminated r).inputs = s.inputs := rfl
@[simp] theorem State.terminated_responses (s : State) (r : Rst) : (s.terminated r).responses = s.responses := rfl

/-! ### `State.opened` -/

@[simp] theorem State.opened_crc (s : State) : (s.opened).crc = s.crc := rfl
@[simp] theorem State.opened_target (s : State) : (s.opened).target = s.target := rfl
@[simp] theorem State.opened_ncnt (s : State) : (s.opened).ncnt = s.ncnt := rfl
@[simp] theorem State.opened_nonce (s : State) : (s.opened).nonce = s.nonce := rfl
@[simp] theorem State.opened_hitmap (s : State) : (s.opened).hitmap = s.hitmap := rfl
@[simp] theorem State.opened_scr (s : State) : (s.opened).scr = s.scr := rfl
@[simp] theorem State.opened_dsc (s : State) : (s.opened).dsc = s.dsc := rfl
@[simp] theorem State.opened_rst (s : State) : (s.opened).rst = .run := rfl
@[simp] theorem State.opened_cur (s : State) : (s.opened).cur = 0 := rfl
@[simp] theorem State.opened_slen (s : State) : (s.opened).slen = 0 := rfl
@[simp] theorem State.opened_flags (s : State) : (s.opened).flags = s.flags.noSegment := rfl
@[simp] theorem State.opened_scrc (s : State) : (s.opened).scrc = s.scrc := rfl
@[simp] theorem State.opened_seg (s : State) : (s.opened).seg = s.seg := rfl
@[simp] theorem State.opened_boxaddr (s : State) : (s.opened).boxaddr = s.boxaddr := rfl
@[simp] theorem State.opened_tierval (s : State) : (s.opened).tierval = s.tierval := rfl
@[simp] theorem State.opened_hdr (s : State) : (s.opened).hdr = s.hdr := rfl
@[simp] theorem State.opened_hcrc (s : State) : (s.opened).hcrc = s.hcrc := rfl
@[simp] theorem State.opened_src (s : State) : (s.opened).src = s.src := rfl
@[simp] theorem State.opened_inputs (s : State) : (s.opened).inputs = s.inputs := rfl
@[simp] theorem State.opened_responses (s : State) : (s.opened).responses = s.responses := rfl

/-! ### `FLAGS`, `RST` and codes as bits -/

@[simp] theorem Flags.bits_getLsbD_zero (f : Flags) : f.bits.getLsbD 0 = f.segv := by
  rcases f with ⟨_ | _, _ | _, _ | _⟩ <;> rfl

@[simp] theorem Flags.bits_getLsbD_one (f : Flags) : f.bits.getLsbD 1 = f.ckok := by
  rcases f with ⟨_ | _, _ | _, _ | _⟩ <;> rfl

@[simp] theorem Flags.bits_getLsbD_two (f : Flags) : f.bits.getLsbD 2 = f.hdrv := by
  rcases f with ⟨_ | _, _ | _, _ | _⟩ <;> rfl

theorem Rst.bits_injective (a b : Rst) (h : a.bits = b.bits) : a = b := by
  cases a <;> cases b <;> first | rfl | exact absurd h (by decide)

theorem Code.byte_injective (a b : Code) (h : a.byte = b.byte) : a = b := by
  cases a <;> cases b <;> first | rfl | exact absurd h (by decide)

end Sys2Proof.Machine
end

