-- ==== Sys2Proof/Laws/Ops.lean ====
section
/-! SUPPORT. What each shared operation and each meaning can answer, said once: if it answers `next t`, then one
of these cases holds. -/

namespace Sys2Proof.Machine

/-! ### Responses and exceptions -/

@[simp] theorem respond_eq_next (c : Code) (v : Word) (s t : State) :
    respond c v s = .next t ↔ t = s.answer c v := by
  simp [respond, eq_comm]

@[simp] theorem raise_eq_next (c : Code) (s t : State) : raise c s = .next t ↔ t = s.answer c 0 :=
  respond_eq_next ..

@[simp] theorem terminate_eq_next (r : Rst) (c : Code) (s t : State) :
    terminate r c s = .next t ↔ t = (s.terminated r).answer c 0 :=
  respond_eq_next ..

/-! ### The terminal outcomes of a reader (`41_reader.md` rules R122, R216) -/

/-- The terminal status and code pairs of R122. -/
def TerminalPair (r : Rst) (c : Code) : Prop :=
  (r = .tEos ∧ c = .eos) ∨ (r = .tTooLarge ∧ c = .errTooLarge) ∨ (r = .tTrunc ∧ c = .errTruncated) ∨
    (r = .tTooShort ∧ c = .errTooShort)

theorem rdShortBody_cases {s t : State} (h : rdShortBody s = .next t) :
    ∃ r c, TerminalPair r c ∧ t = (s.terminated r).answer c 0 := by
  unfold rdShortBody at h
  split at h
  · exact ⟨.tEos, .eos, .inl ⟨rfl, rfl⟩, (terminate_eq_next ..).1 h⟩
  · exact ⟨.tTrunc, .errTruncated, .inr (.inr (.inl ⟨rfl, rfl⟩)), (terminate_eq_next ..).1 h⟩

theorem rdLoneByte_cases {s t : State} (h : rdLoneByte s = .next t) :
    ∃ r c, TerminalPair r c ∧ t = (s.terminated r).answer c 0 := by
  unfold rdLoneByte at h
  split at h
  · exact ⟨.tEos, .eos, .inl ⟨rfl, rfl⟩, (terminate_eq_next ..).1 h⟩
  · exact ⟨.tTrunc, .errTruncated, .inr (.inr (.inl ⟨rfl, rfl⟩)), (terminate_eq_next ..).1 h⟩

/-- A consumed prefix ends the reader, or the whole body is there and is yielded. -/
theorem rdCheckLength_cases {s t : State} {len : Half} (h : rdCheckLength len s = .next t) :
    (∃ r c, TerminalPair r c ∧ t = (s.terminated r).answer c 0) ∨
    (18 ≤ len.toNat ∧ len.toNat ≤ 1024 ∧ len.toNat ≤ s.avail ∧
      t = (s.yieldSegment len.toNat).answer (Code.ofMatch (s.yieldedMatch len.toNat)) (BitVec.ofNat 32 len.toNat)) := by
  unfold rdCheckLength at h
  split at h
  · exact .inl ⟨.tEos, .eos, .inl ⟨rfl, rfl⟩, (terminate_eq_next ..).1 h⟩
  split at h
  · exact .inl ⟨.tTooLarge, .errTooLarge, .inr (.inl ⟨rfl, rfl⟩), (terminate_eq_next ..).1 h⟩
  split at h
  · exact .inl ⟨.tTooShort, .errTooShort, .inr (.inr (.inr ⟨rfl, rfl⟩)), (terminate_eq_next ..).1 h⟩
  rename_i hmax hmin
  simp only [Config.maxSeg, Config.minSeg, not_lt] at hmax hmin
  unfold rdBody at h
  split at h
  · exact .inl (rdShortBody_cases h)
  · exact .inr ⟨hmin, hmax, by omega, (respond_eq_next ..).1 h⟩

/-- Everything `RDNEXT` can do (R122): refused; a sticky repeat; a terminal outcome with the prefix consumed or
not; a yield. -/
theorem execRdnext_cases {s t : State} (h : execRdnext s = .next t) :
    (s.rst = .closed ∧ t = s.answer .errNotOpen 0) ∨
    (∃ c, TerminalPair s.rst c ∧ t = s.answer c 0) ∨
    (s.rst = .run ∧ ∃ r c, TerminalPair r c ∧
      (t = (s.terminated r).answer c 0 ∨ (2 ≤ s.avail ∧ t = ((s.advance 2).terminated r).answer c 0))) ∨
    (s.rst = .run ∧ 2 ≤ s.avail ∧ ∃ len, 18 ≤ len ∧ len ≤ 1024 ∧ len ≤ (s.advance 2).avail ∧
      len = s.lengthPrefix.toNat ∧
      t = ((s.advance 2).yieldSegment len).answer (Code.ofMatch ((s.advance 2).yieldedMatch len))
        (BitVec.ofNat 32 len)) := by
  unfold execRdnext at h
  split at h
  · exact .inl ⟨‹_›, (raise_eq_next ..).1 h⟩
  · exact .inr (.inl ⟨.eos, .inl ⟨‹_›, rfl⟩, (respond_eq_next ..).1 h⟩)
  · exact .inr (.inl ⟨.errTooLarge, .inr (.inl ⟨‹_›, rfl⟩), (respond_eq_next ..).1 h⟩)
  · exact .inr (.inl ⟨.errTruncated, .inr (.inr (.inl ⟨‹_›, rfl⟩)), (respond_eq_next ..).1 h⟩)
  · exact .inr (.inl ⟨.errTooShort, .inr (.inr (.inr ⟨‹_›, rfl⟩)), (respond_eq_next ..).1 h⟩)
  rename_i hrun
  unfold rdRun at h
  split at h
  · exact .inr (.inr (.inl ⟨hrun, .tEos, .eos, .inl ⟨rfl, rfl⟩, .inl ((terminate_eq_next ..).1 h)⟩))
  split at h
  · obtain ⟨r, c, hp, ht⟩ := rdLoneByte_cases h
    exact .inr (.inr (.inl ⟨hrun, r, c, hp, .inl ht⟩))
  have h2 : 2 ≤ s.avail := by omega
  obtain ⟨r, c, hp, ht⟩ | ⟨h18, h1024, hav, ht⟩ := rdCheckLength_cases h
  · exact .inr (.inr (.inl ⟨hrun, r, c, hp, .inr ⟨h2, ht⟩⟩))
  · exact .inr (.inr (.inr ⟨hrun, h2, _, h18, h1024, hav, rfl, ht⟩))

/-! ### The other meanings -/

theorem setCrc_eq_next (v : Half) (s t : State) :
    s.setCrc v = .next t ↔ t = State.answer { s with crc := v } .ok (v.setWidth 32) :=
  respond_eq_next ..

theorem execCksolve_eq_next (s t : State) :
    execCksolve s = .next t ↔ t = (s.search s.crc).answer .ok ((s.search s.crc).ncnt.setWidth 32) :=
  respond_eq_next ..

theorem execRdopen_eq_next (s t : State) : execRdopen s = .next t ↔ t = s.opened.answer .ok 0 :=
  respond_eq_next ..

theorem execSgldb_cases {off : BitVec 10} {s t : State} (h : execSgldb off s = .next t) :
    ((s.flags.segv = false ∨ s.slen.toNat ≤ off.toNat) ∧ t = s.answer .errNoData 0) ∨
    (s.flags.segv = true ∧ off.toNat < s.slen.toNat ∧
      t = s.answer .ok ((s.segByte off.toNat).setWidth 32)) := by
  unfold execSgldb at h
  split at h
  · exact .inl ⟨‹_›, (raise_eq_next ..).1 h⟩
  · rename_i hn
    simp only [not_or, Bool.not_eq_false, not_le] at hn
    exact .inr ⟨hn.1, hn.2, (respond_eq_next ..).1 h⟩

theorem execCpbuild_cases {s t : State} (h : execCpbuild s = .next t) :
    (s.boxaddr.msb = false ∧ t = s.answer .errPrecondition 0) ∨
    (s.boxaddr.msb = true ∧ t = s.buildPacket.answer .ok (s.buildPacket.ncnt.setWidth 32)) := by
  unfold execCpbuild at h
  split at h
  · exact .inr ⟨‹_›, (respond_eq_next ..).1 h⟩
  · rename_i hn
    exact .inl ⟨eq_false_of_ne_true hn, (raise_eq_next ..).1 h⟩

theorem execCpldb_cases {i : BitVec 4} {s t : State} (h : execCpldb i s = .next t) :
    (s.flags.hdrv = false ∧ t = s.answer .errNoData 0) ∨
    (s.flags.hdrv = true ∧ t = s.answer .ok ((s.hdrByte i.toNat).setWidth 32)) := by
  unfold execCpldb at h
  split at h
  · exact .inr ⟨‹_›, (respond_eq_next ..).1 h⟩
  · rename_i hn
    exact .inl ⟨eq_false_of_ne_true hn, (raise_eq_next ..).1 h⟩

/-- `RDREG` only answers: illegal, no data, or the register's value. -/
theorem execRdreg_cases {r : Byte} {s t : State} (h : execRdreg r s = .next t) :
    (s.readReg r = none ∧ t = s.answer .errIllegalCmd 0) ∨
    (((regNeedsSegment r = true ∧ s.flags.segv = false) ∨ (regNeedsHeader r = true ∧ s.flags.hdrv = false)) ∧
      t = s.answer .errNoData 0) ∨
    (∃ v, s.readReg r = some v ∧ (regNeedsSegment r = true → s.flags.segv = true) ∧
      (regNeedsHeader r = true → s.flags.hdrv = true) ∧ t = s.answer .ok v) := by
  unfold execRdreg at h
  split at h
  · exact .inl ⟨‹_›, (raise_eq_next ..).1 h⟩
  split at h
  · exact .inr (.inl ⟨.inl ‹_›, (raise_eq_next ..).1 h⟩)
  split at h
  · exact .inr (.inl ⟨.inr ‹_›, (raise_eq_next ..).1 h⟩)
  · rename_i hv hs hh
    refine .inr (.inr ⟨_, hv, fun hr => ?_, fun hr => ?_, (respond_eq_next ..).1 h⟩)
    · simpa [hr] using hs
    · simpa [hr] using hh

/-! ### The step -/

theorem takeInput_nil {s : State} (h : s.inputs = []) : s.takeInput = none := by
  simp [State.takeInput, h]

theorem takeInput_cons {s : State} {x : Input} {rest : List Input} (h : s.inputs = x :: rest) :
    s.takeInput = some (x, { s with inputs := rest }) := by
  simp [State.takeInput, h]

/-- What a step does with a command that decodes, and with one that does not. -/
theorem fetch_command {s : State} {w : Word40} {rest : List Input} (h : s.inputs = .command w :: rest) :
    fetch s = match decode w with
      | .ok i => .run i { s with inputs := rest }
      | .error _ => .settled (State.illegalCommand { s with inputs := rest }) := by
  have ht := takeInput_cons h
  unfold fetch
  generalize s.takeInput = o at ht
  subst ht
  rfl

/-! ### The canonical form of the memories an operation writes -/

theorem length_headerBytes (a t : Word) : (headerBytes a t).length = 16 := rfl

theorem State.length_srcBytes (s : State) (n : Nat) (h : n ≤ s.avail) : (s.srcBytes n).length = n := by
  simp only [State.srcBytes, List.length_take, List.length_drop]
  simp only [State.avail, State.srcLen] at h
  omega

theorem State.builtHdr_wf {s : State} (h : s.hdr.wf hdrSize = true) : s.builtHdr.wf hdrSize = true :=
  Memory.wf_writeBytes h _ 0 (by simp [length_headerBytes, hdrSize])

theorem State.yieldedSeg_wf {s : State} {n : Nat} (h : s.seg.wf segSize = true) (hn : n ≤ 1024) :
    (s.yieldedSeg n).wf segSize = true := by
  refine Memory.wf_writeBytes h _ 0 ?_
  simp only [State.srcBytes, List.length_take, segSize]
  omega

theorem reset_memories_wf (image : List Byte) (a b : ShiftReg) :
    (State.resetWith image a b).seg.wf segSize = true ∧ (State.resetWith image a b).hdr.wf hdrSize = true :=
  ⟨rfl, rfl⟩

end Sys2Proof.Machine
end

