-- ==== Sys2Proof/Laws/PerInstr.lean ====
section
/-! SUPPORT. Statements for all instructions, one lemma per constructor. The family `RowMatch`: the word of an
instruction matches its row of spec/opcode_table.json and its reserved bits are zero. -/

namespace Sys2Proof.Laws.RowMatch

/-- The encoding of an instruction matches its row: masked, it is the row's pattern (`30_encoding.md` rule R72). -/
def Statement (i : Instr) : Prop := encode i &&& i.row.mask = i.row.pattern

/-- A word `op ++ v` with `v` zero-extended to 32 bits, under a mask of its reserved bits. -/
theorem masked {k : Nat} (op : Byte) (v : BitVec k) (mask pattern : Word40)
    (h : ∀ j, j < 40 → (((op ++ v.setWidth 32 : BitVec (8 + 32)).getLsbD j) && mask.getLsbD j) = pattern.getLsbD j) :
    commandWord op (v.setWidth 32) &&& mask = pattern := by
  apply BitVec.eq_of_getLsbD_eq
  intro j hj
  rw [BitVec.getLsbD_and]
  exact h j hj

/-- The bits of `op ++ v`: `op` from bit 32 up, the operand's `k` bits below, zero between. -/
theorem word_bit {k : Nat} (op : Byte) (v : BitVec k) (j : Nat) :
    (op ++ v.setWidth 32 : BitVec (8 + 32)).getLsbD j =
      if j < 32 then (decide (j < 32) && v.getLsbD j) else op.getLsbD (j - 32) := by
  rw [BitVec.getLsbD_append, BitVec.getLsbD_setWidth]

theorem ckinit : Statement .ckinit := by unfold Statement; decide
theorem ckfin : Statement .ckfin := by unfold Statement; decide
theorem cksolve : Statement .cksolve := by unfold Statement; decide
theorem rdopen : Statement .rdopen := by unfold Statement; decide
theorem rdnext : Statement .rdnext := by unfold Statement; decide
theorem cpbuild : Statement .cpbuild := by unfold Statement; decide

/-- The bits of a masked word, checked one by one: below `k` the mask is clear, above it the word's bit is known. -/
theorem of_bits {k : Nat} (op : Byte) (v : BitVec k) (mask pattern : Word40)
    (hlow : ∀ j, j < k → j < 32 → mask.getLsbD j = false ∧ pattern.getLsbD j = false)
    (hmid : ∀ j, j < 32 → k ≤ j → pattern.getLsbD j = false)
    (hop : ∀ j, j < 8 → (op.getLsbD j && mask.getLsbD (j + 32)) = pattern.getLsbD (j + 32)) :
    commandWord op (v.setWidth 32) &&& mask = pattern := by
  apply masked
  intro j hj
  rw [word_bit]
  by_cases h32 : j < 32
  · rw [if_pos h32]
    by_cases hk : j < k
    · rw [(hlow j hk h32).1, (hlow j hk h32).2, Bool.and_false]
    · rw [hmid j h32 (by omega), BitVec.getLsbD_of_ge v j (by omega), Bool.and_false, Bool.false_and]
  · rw [if_neg h32]
    have := hop (j - 32) (by omega)
    rwa [Nat.sub_add_cancel (by omega)] at this

theorem ckupd (b : Byte) : Statement (.ckupd b) :=
  of_bits 0x11 b 0xFFFFFFFF00 0x1100000000 (by decide) (by decide) (by decide)
theorem ckld (v : Half) : Statement (.ckld v) :=
  of_bits 0x13 v 0xFFFFFF0000 0x1300000000 (by decide) (by decide) (by decide)
theorem cktgt (v : Half) : Statement (.cktgt v) :=
  of_bits 0x14 v 0xFFFFFF0000 0x1400000000 (by decide) (by decide) (by decide)
theorem ckhit (n : Half) : Statement (.ckhit n) :=
  of_bits 0x16 n 0xFFFFFF0000 0x1600000000 (by decide) (by decide) (by decide)
theorem scrld (v : ShiftReg) : Statement (.scrld v) :=
  of_bits 0x20 v 0xFFFF800000 0x2000000000 (by decide) (by decide) (by decide)
theorem scrbit (b : Bit) : Statement (.scrbit b) :=
  of_bits 0x21 b 0xFFFFFFFFFE 0x2100000000 (by decide) (by decide) (by decide)
theorem dscld (v : ShiftReg) : Statement (.dscld v) :=
  of_bits 0x28 v 0xFFFF800000 0x2800000000 (by decide) (by decide) (by decide)
theorem dscbit (b : Bit) : Statement (.dscbit b) :=
  of_bits 0x29 b 0xFFFFFFFFFE 0x2900000000 (by decide) (by decide) (by decide)
theorem sgldb (off : BitVec 10) : Statement (.sgldb off) :=
  of_bits 0x32 off 0xFFFFFFFC00 0x3200000000 (by decide) (by decide) (by decide)
theorem cpldb (i : BitVec 4) : Statement (.cpldb i) :=
  of_bits 0x43 i 0xFFFFFFFFF0 0x4300000000 (by decide) (by decide) (by decide)
theorem rdreg (r : Byte) : Statement (.rdreg r) :=
  of_bits 0xF0 r 0xFFFFFFFF00 0xF000000000 (by decide) (by decide) (by decide)

theorem cpaddr (a : Word) : Statement (.cpaddr a) := by
  have h := of_bits 0x40 a 0xFF00000000 0x4000000000 (by decide) (by decide) (by decide)
  rwa [BitVec.setWidth_eq] at h

theorem cptier (t : Word) : Statement (.cptier t) := by
  have h := of_bits 0x41 t 0xFF00000000 0x4100000000 (by decide) (by decide) (by decide)
  rwa [BitVec.setWidth_eq] at h

end Sys2Proof.Laws.RowMatch
end

