-- ==== Sys2Proof/Laws/Search.lean ====
section
/-! SUPPORT. The collision search: what its result holds, and a form of it that Lean's kernel can run (`solve_fast`):
one table of index bytes, then only the rows in which a hit can stand. -/

namespace Sys2Proof.Machine

/-! ### What the result holds (`40_checksum.md` rule R102) -/

theorem mem_solve (g c target : Half) (n : Nat) :
    n ∈ solve g c target ↔ n < 65536 ∧ isHit g c target n = true := by
  unfold solve Config.nonceCount
  rw [List.mem_filter, List.mem_range]

theorem solve_rising (g c target : Half) : (solve g c target).Pairwise (· < ·) := by
  unfold solve
  exact List.pairwise_lt_range.filter _

theorem length_solve_le (g c target : Half) : (solve g c target).length ≤ 65536 := by
  unfold solve
  exact (List.length_filter_le _ _).trans (by rw [List.length_range, Config.nonceCount])

/-- The first of the hits is the lowest (R103: `NONCE <- min(H)`). -/
theorem headD_solve_le (g c target : Half) (n : Nat) (h : n ∈ solve g c target) : (solve g c target).headD 0 ≤ n := by
  have hr := solve_rising g c target
  generalize solve g c target = l at h hr
  cases l with
  | nil => cases h
  | cons m l =>
    rcases List.mem_cons.1 h with rfl | h
    · exact Nat.le_refl _
    · exact Nat.le_of_lt ((List.pairwise_cons.1 hr).1 n h)

theorem headD_solve_lt (g c target : Half) : (solve g c target).headD 0 < 65536 := by
  cases h : solve g c target with
  | nil => decide
  | cons n l => exact ((mem_solve g c target n).1 (by rw [h]; exact List.mem_cons_self)).1

/-! ### A form the kernel can run -/

/-- The word the two `ROM` lookups of an index byte give (R93). -/
def romWord (g : Half) (idx : Byte) : Half := crcRom g (romLo idx) ^^^ crcRom g (romHi idx)

theorem crcUpdate_eq (g c : Half) (b : Byte) :
    crcUpdate g c b = (loByte c ^^^ hiByte (romWord g (hiByte c ^^^ b))) ++ loByte (romWord g (hiByte c ^^^ b)) := rfl

theorem hiByte_append (a b : Byte) : hiByte (a ++ b) = a := by
  apply BitVec.eq_of_getLsbD_eq
  intro i hi
  rw [hiByte, BitVec.getLsbD_extractLsb', BitVec.getLsbD_append, decide_eq_true hi, Bool.true_and,
    if_neg (by omega), Nat.add_sub_cancel_left]

theorem loByte_append (a b : Byte) : loByte (a ++ b) = b := by
  apply BitVec.eq_of_getLsbD_eq
  intro i hi
  rw [loByte, BitVec.getLsbD_extractLsb', BitVec.getLsbD_append, decide_eq_true hi, Bool.true_and, Nat.zero_add,
    if_pos hi]

/-- The high halves of the `ROM` words whose low half is the target's. -/
def highKeys (g target : Half) : List Byte :=
  ((List.range 256).map fun i => romWord g (BitVec.ofNat 8 i)).filterMap fun t =>
    if loByte t = loByte target then some (hiByte t) else none

/-- Whether a hit can have the high byte `h`. -/
def rowOpen (g c target : Half) (keys : List Byte) (h : Nat) : Bool :=
  keys.contains (hiByte target ^^^ loByte (crcUpdate g c (BitVec.ofNat 8 h)))

/-- The search, row by row, skipping the rows in which no hit can stand. -/
def solveRows (g c target : Half) (keys : List Byte) : List Nat :=
  (List.range 256).flatMap fun h =>
    if rowOpen g c target keys h then ((List.range 256).map (256 * h + ·)).filter (isHit g c target) else []

theorem range_rows (n : Nat) :
    List.range (256 * n) = (List.range n).flatMap fun h => (List.range 256).map (256 * h + ·) := by
  induction n with
  | zero => rfl
  | succ n ih =>
    rw [Nat.mul_succ, List.range_add, ih, List.range_succ (n := n), List.flatMap_append, List.flatMap_singleton]

theorem nonce_bytes (h l : Nat) (hl : l < 256) :
    hiByte (BitVec.ofNat 16 (256 * h + l)) = BitVec.ofNat 8 h ∧
      loByte (BitVec.ofNat 16 (256 * h + l)) = BitVec.ofNat 8 l := by
  constructor
  · apply BitVec.eq_of_toNat_eq
    simp only [hiByte, BitVec.extractLsb'_toNat, BitVec.toNat_ofNat, Nat.shiftRight_eq_div_pow]
    omega
  · apply BitVec.eq_of_toNat_eq
    simp only [loByte, BitVec.extractLsb'_toNat, BitVec.toNat_ofNat, Nat.shiftRight_eq_div_pow]
    omega

/-- A hit stands only in an open row. -/
theorem rowOpen_of_hit (g c target : Half) (h l : Nat) (hl : l < 256)
    (hit : isHit g c target (256 * h + l) = true) : rowOpen g c target (highKeys g target) h = true := by
  obtain ⟨e1, e2⟩ := nonce_bytes h l hl
  simp only [isHit, bytesBE, e1, e2, crcBytes, beq_iff_eq] at hit
  rw [crcUpdate_eq] at hit
  set c1 := crcUpdate g c (BitVec.ofNat 8 h) with hc1
  set idx := hiByte c1 ^^^ BitVec.ofNat 8 l with hidx
  have hlo : loByte (romWord g idx) = loByte target := by rw [← hit, loByte_append]
  have hhi : hiByte (romWord g idx) = hiByte target ^^^ loByte c1 := by
    rw [← hit, hiByte_append, BitVec.xor_comm (loByte c1), BitVec.xor_assoc, BitVec.xor_self, BitVec.xor_zero]
  unfold rowOpen
  rw [List.contains_iff_mem, ← hc1, ← hhi, highKeys, List.mem_filterMap]
  refine ⟨romWord g idx, ?_, by rw [if_pos hlo]⟩
  rw [List.mem_map]
  exact ⟨idx.toNat, List.mem_range.2 idx.isLt, by rw [BitVec.ofNat_toNat, BitVec.setWidth_eq]⟩

/-- The search equals its row form, for the keys computed beforehand. -/
theorem solve_fast (g c target : Half) (keys : List Byte) (hk : highKeys g target = keys) :
    solve g c target = solveRows g c target keys := by
  subst hk
  unfold solve solveRows
  rw [show Config.nonceCount = 256 * 256 from rfl, range_rows, List.filter_flatMap]
  apply List.flatMap_congr
  intro h _
  split
  · rfl
  · rename_i hno
    rw [List.filter_eq_nil_iff]
    intro n hn hit
    obtain ⟨l, hl, rfl⟩ := List.mem_map.1 hn
    exact hno (rowOpen_of_hit g c target h l (List.mem_range.1 hl) hit)

end Sys2Proof.Machine
end

