-- ==== Sys2Proof/Tests/Slice0.lean ====
section
/-! SUPPORT. Tests: expected values from 95_test_vectors.md and the examples of the rules, and for every statement
with hypotheses a state and operands that meet them. -/

namespace Sys2Proof.Tests

open Sys2Proof Sys2Proof.Machine

/-! ### Helpers -/

/-- The next state, if there is one. -/
def after (o : Host.Outcome State Fault Refusal) : Option State :=
  match o with
  | .next t => some t
  | .fault _ => none
  | .refused _ => none

/-- The response an operation gives from a state. -/
def respOf (o : Host.Outcome State Fault Refusal) : Option Response := (after o).bind (·.responses.head?)

/-- A state after reset with an image and both seeds 0. -/
def fresh (image : List Byte) : State := State.resetWith image 0 0

/-- The same with a reader open. -/
def reading (image : List Byte) : State := { fresh image with rst := .run }

/-- The header of the source's example (95_test_vectors.md S1). -/
def exampleHeader : List Byte := [0, 0, 1, 0, 0, 0x7F, 0xFF, 0xFF, 0xFF, 0, 0, 0, 0, 0, 0, 0]

/-- `good18` and `bad18` of 95_test_vectors.md section 5. -/
def good18 : List Byte := [0x12, 0x00] ++ exampleHeader ++ [0xAB, 0x43]
def bad18 : List Byte := [0x12, 0x00] ++ exampleHeader ++ [0xAB, 0x42]

/-- The 21 bytes of the field-view vector of 95_test_vectors.md section 5. -/
def viewBody : List Byte :=
  [0xAB, 0xCD, 0xEF, 0x34, 0x56, 0x12, 0x34, 0x56, 0x78, 0x9A, 0xBC, 0xDE, 0x34, 0x12, 0xF0, 0x0D, 1, 2, 3, 0x8D, 0x11]

/-- A state that holds that segment. -/
def viewing : State :=
  { reading ([0x15, 0x00] ++ viewBody) with
    cur := 23
    slen := 21
    seg := Memory.writeBytes [] 0 viewBody
    scrc := 0x72EE
    flags := { segv := true, ckok := true, hdrv := false } }

/-- A state with a built header: broadcast address, full-access AND mask (95_test_vectors.md section 6). -/
def built : State :=
  { viewing with
    hdr := Memory.writeBytes [] 0 (headerBytes 0xFFFFFFFF 0x7FFFFFFF)
    hcrc := 0x4569
    flags := { segv := true, ckok := true, hdrv := true } }

/-! ### Well-formedness -/

theorem test_wellFormed_rdreg_assigned : (Instr.rdreg 0x22).wellFormed = true := by decide
theorem test_illFormed_rdreg_0B : (Instr.rdreg 0x0B).wellFormed = false := by decide
theorem test_illFormed_rdreg_1A : (Instr.rdreg 0x1A).wellFormed = false := by decide
theorem test_illFormed_rdreg_23 : (Instr.rdreg 0x23).wellFormed = false := by decide

/-! ### Decoding: one word per constructor, written from `30_encoding.md` rule R72 -/

theorem test_decode_ckinit : decode 0x1000000000 = .ok .ckinit := by rfl
theorem test_decode_ckupd : decode 0x11000000A5 = .ok (.ckupd 0xA5) := by rfl
theorem test_decode_ckfin : decode 0x1200000000 = .ok .ckfin := by rfl
theorem test_decode_ckld : decode 0x13000054BC = .ok (.ckld 0x54BC) := by rfl
theorem test_decode_cktgt : decode 0x1400001D0F = .ok (.cktgt 0x1D0F) := by rfl
theorem test_decode_cksolve : decode 0x1500000000 = .ok .cksolve := by rfl
theorem test_decode_ckhit : decode 0x160000AB43 = .ok (.ckhit 0xAB43) := by rfl
theorem test_decode_scrld : decode 0x20007FFFFF = .ok (.scrld 0x7FFFFF) := by rfl
theorem test_decode_scrbit : decode 0x2100000001 = .ok (.scrbit 1) := by rfl
theorem test_decode_dscld : decode 0x28007FFFFF = .ok (.dscld 0x7FFFFF) := by rfl
theorem test_decode_dscbit : decode 0x2900000001 = .ok (.dscbit 1) := by rfl
theorem test_decode_rdopen : decode 0x3000000000 = .ok .rdopen := by rfl
theorem test_decode_rdnext : decode 0x3100000000 = .ok .rdnext := by rfl
theorem test_decode_sgldb : decode 0x32000003FF = .ok (.sgldb 1023) := by rfl
theorem test_decode_cpaddr : decode 0x40FFFFFFFF = .ok (.cpaddr 0xFFFFFFFF) := by rfl
theorem test_decode_cptier : decode 0x417FFFFFFF = .ok (.cptier 0x7FFFFFFF) := by rfl
theorem test_decode_cpbuild : decode 0x4200000000 = .ok .cpbuild := by rfl
theorem test_decode_cpldb : decode 0x430000000F = .ok (.cpldb 15) := by rfl
theorem test_decode_rdreg : decode 0xF000000013 = .ok (.rdreg 0x13) := by rfl

/-- Illegal words of 95_test_vectors.md section 2: unknown codes. -/
theorem test_unknown_ops :
    [decode 0x0000000000, decode 0xFFFFFFFFFF, decode 0x1700000000, decode 0x5000000000, decode 0xF100000000] =
      [.error (.unknownOp 0x00), .error (.unknownOp 0xFF), .error (.unknownOp 0x17), .error (.unknownOp 0x50),
        .error (.unknownOp 0xF1)] := by rfl

/-- Illegal words of 95_test_vectors.md section 2: reserved bits. -/
theorem test_reserved_bits :
    ([0x1000000001, 0x1100000100, 0x1200000001, 0x1300010000, 0x1500000001, 0x1600010000, 0x2000800000,
        0x2800800000] ++
      [0x2100000002, 0x2900000002, 0x3000000001, 0x3100000001, 0x3200000400, 0x4200000001, 0x4300000010,
        0xF000000100] : List Word40).all
      (fun w => match decode w with | .error (.reservedBits _ _) => true | _ => false) = true := by decide

/-- The table's bit numbering: a row's word decodes to the row's instruction. -/
theorem test_decodeTableWord : decodeTableWord 40 0x3200000011 = some (.sgldb 17) := by rfl

/-- `step` runs a word offered after reset as its first command (SCRLD: no seed is read). -/
theorem test_withFetchWord :
    respOf (step (State.reset.withFetchWord 40 0x2000000005)) = some ⟨.ok, 5⟩ := by rfl

/-! ### The checksum unit -/

/-- R97. -/
theorem test_ckinit : respOf (exec .ckinit (fresh [])) = some ⟨.ok, 0xFFFF⟩ := by decide

/-- R93's worked example. -/
theorem test_ckupd_31 : respOf (exec (.ckupd 0x31) (fresh [])) = some ⟨.ok, 0xC782⟩ := by decide +kernel

/-- R98. -/
theorem test_ckupd_1234_56 :
    respOf (exec (.ckupd 0x56) { fresh [] with crc := 0x1234 }) = some ⟨.ok, 0x3C40⟩ := by decide +kernel

/-- 95_test_vectors.md section 3: `123456789` has running value 0x29B1. -/
theorem test_crcBytes_check :
    crcBytes Config.poly 0xFFFF [0x31, 0x32, 0x33, 0x34, 0x35, 0x36, 0x37, 0x38, 0x39] = 0x29B1 := by decide +kernel

/-- R99. -/
theorem test_ckfin : respOf (exec .ckfin { fresh [] with crc := 0x54BC }) = some ⟨.ok, 0xAB43⟩ := by decide

/-- R100. -/
theorem test_ckld : respOf (exec (.ckld 0x54BC) (fresh [])) = some ⟨.ok, 0x54BC⟩ := by decide

/-- R101: the search results stay. -/
theorem test_cktgt :
    (after (exec (.cktgt 0) { fresh [] with nonce := 0xAB43 })).map (fun t => (t.target, t.nonce)) =
      some (0, 0xAB43) := by decide

/-- R103: from 0x54BC one nonce reaches 0x1D0F, 0xAB43. -/
theorem test_solve_54BC : solve Config.poly 0x54BC 0x1D0F = [0xAB43] :=
  (solve_fast _ _ _ [0xED] (by decide +kernel)).trans (by decide +kernel)

/-- R103's second example. -/
theorem test_cksolve :
    (after (execCksolve { fresh [] with crc := 0x54BC })).map (fun t => (t.ncnt, t.nonce, t.crc)) =
      some (1, 0xAB43, 0x54BC) := by
  simp only [execCksolve, respond, after, Option.map_some, State.answer_ncnt, State.answer_nonce, State.answer_crc,
    State.search_ncnt, State.search_nonce, State.search_crc, State.hitsFrom]
  rw [show (fresh []).target = 0x1D0F from rfl, test_solve_54BC]
  decide

/-- 95_test_vectors.md section 3, parameter variation: with `POLY = 0x0000` no nonce reaches 0x1D0F. -/
theorem test_solve_poly_zero : solve 0x0000 0xFFFF 0x1D0F = [] :=
  (solve_fast _ _ _ [] (by decide +kernel)).trans (by decide +kernel)

/-- R104. -/
theorem test_ckhit_hit : respOf (exec (.ckhit 0xAB43) { fresh [] with hitmap := [0xAB43] }) = some ⟨.ok, 1⟩ := by decide
theorem test_ckhit_miss : respOf (exec (.ckhit 0xAB42) { fresh [] with hitmap := [0xAB43] }) = some ⟨.ok, 0⟩ := by decide

/-! ### The scrambler unit (95_test_vectors.md section 4) -/

theorem test_scrld : (after (exec (.scrld 0x7FFFFF) (fresh []))).map (·.scr) = some 0x7FFFFF := by decide
theorem test_dscld : (after (exec (.dscld 0x7FFFFF) (fresh []))).map (·.dsc) = some 0x7FFFFF := by decide
theorem test_scrbit_both_taps : scrStep 0x080004 0 = (0x100009, 1) := by decide
theorem test_scrbit_123456 : scrStep 0x123456 1 = (0x2468AD, 1) := by decide
theorem test_dscbit_both_taps : dscStep 0x080004 0 = (0x100008, 1) := by decide
theorem test_dscbit_bit22_dropped : dscStep 0x400000 1 = (0x000001, 0) := by decide

/-- After 32 zero bits from 0 the register is 0x0E3723. -/
theorem test_scr_warm_up : (runBits scrStep 0 (List.replicate 32 0)).1 = 0x0E3723 := by decide +kernel

/-- `90_conflicts.md` C1: the literal reading does not give the zeros back; the chosen one does. -/
theorem test_literal_reading_fails :
    (runBits dscStepLiteral 0 (runBits scrStep 0 (List.replicate 32 0)).2).2.take 8 = [0, 0, 0, 1, 0, 0, 1, 0] ∧
    (runBits dscStep 0 (runBits scrStep 0 (List.replicate 32 0)).2).2 = List.replicate 32 0 := by decide +kernel

/-! ### The reader (95_test_vectors.md section 5) -/

theorem test_rdopen : (after (exec .rdopen { fresh [] with rst := .tTrunc, cur := 9 })).map (fun t => (t.rst, t.cur)) =
    some (.run, 0) := by decide

/-- `good18`: OK 18, cursor 20, SLEN 18, SEGV and CKOK, SCRC 0x54BC. -/
theorem test_rdnext_good :
    (after (exec .rdnext (reading good18))).map (fun t => (t.responses, t.cur, t.slen)) =
      some ([⟨.ok, 18⟩], 20, 18) ∧
    (after (exec .rdnext (reading good18))).map (fun t => (t.flags.bits, t.scrc, t.segByte 17)) =
      some (3, 0x54BC, 0x43) := by decide +kernel

/-- `bad18`: the mismatch is yielded and the reader goes on. -/
theorem test_rdnext_bad :
    (after (exec .rdnext (reading bad18))).map (fun t => (t.responses, t.rst, t.flags.bits)) =
      some ([⟨.cksumMismatch, 18⟩], .run, 1) := by decide +kernel

/-- The rows `12 00 1A`, `12 00 00 1A`, `1A 1A 01 02 03`, `00 00 1A`, `1B 1A`, `1A`, `00` and the empty image. -/
theorem test_rdnext_ends :
    [[0x12, 0, 0x1A], [0x12, 0, 0, 0x1A], [0x1A, 0x1A, 1, 2, 3], [0, 0, 0x1A], [0x1B, 0x1A], [0x1A], [0], []].map
      (fun image => (after (exec .rdnext (reading image))).map (fun t => (t.responses, t.rst.bits, t.cur))) =
      [some ([⟨.eos, 0⟩], 2, 2), some ([⟨.errTruncated, 0⟩], 4, 2), some ([⟨.eos, 0⟩], 2, 2),
        some ([⟨.errTooShort, 0⟩], 5, 2), some ([⟨.errTooLarge, 0⟩], 3, 2), some ([⟨.eos, 0⟩], 2, 0),
        some ([⟨.errTruncated, 0⟩], 4, 0), some ([⟨.eos, 0⟩], 2, 0)] := by decide +kernel

theorem test_sgldb_last : respOf (exec (.sgldb 20) viewing) = some ⟨.ok, 0x11⟩ := by decide +kernel
theorem test_sgldb_outside : respOf (exec (.sgldb 21) viewing) = some ⟨.errNoData, 0⟩ := by decide +kernel

/-! ### The builder and register read (95_test_vectors.md sections 5 and 6) -/

theorem test_cpaddr : respOf (exec (.cpaddr 0xFFFFFFFF) (fresh [])) = some ⟨.ok, 0xFFFFFFFF⟩ := by decide
theorem test_cptier : (after (exec (.cptier 0x7FFFFFFF) (fresh []))).map (·.tierval) = some 0x7FFFFFFF := by decide
theorem test_cpbuild_refused : respOf (exec .cpbuild { fresh [] with boxaddr := 0x7FFFFFFF }) =
    some ⟨.errPrecondition, 0⟩ := by decide

/-- The header, `HCRC` and the nonce of the broadcast packet. -/
theorem test_cpbuild_header :
    (({ fresh [] with boxaddr := 0xFFFFFFFF, tierval := 0x7FFFFFFF } : State).builtHcrc = 0x4569) ∧
    isHit Config.poly 0x4569 0x1D0F 0xBA96 = true ∧ isHit Config.poly 0x4569 0x1D0F 0xBA97 = false := by decide +kernel

theorem test_cpldb_command : respOf (exec (.cpldb 4) built) = some ⟨.ok, 0x81⟩ := by decide +kernel
theorem test_cpldb_before : respOf (exec (.cpldb 4) viewing) = some ⟨.errNoData, 0⟩ := by decide

/-- Every field view of the vector, and `SCRC`, `SLEN`, `FLAGS`, `CUR`. -/
theorem test_rdreg_views :
    [0x10, 0x11, 0x12, 0x13, 0x14, 0x15, 0x16, 0x17, 0x18, 0x19, 0x0A, 0x08, 0x09, 0x07].map
      (fun r => respOf (exec (.rdreg r) viewing)) =
      [0xABCDEF, 0x34, 0x56, 0x12345678, 0x9ABC, 0xDE, 0x1234, 0xF00D, 3, 0x8D11, 0x72EE, 21, 3, 23].map
        (fun v => some ⟨.ok, v⟩) := by decide +kernel

/-- From reset: unassigned numbers are illegal, absent data is refused. -/
theorem test_rdreg_refused :
    [0x0B, 0x1A, 0x23, 0x10, 0x0A, 0x22].map (fun r => respOf (exec (.rdreg r) (fresh []))) =
      [.errIllegalCmd, .errIllegalCmd, .errIllegalCmd, .errNoData, .errNoData, .errNoData].map
        (fun c => some ⟨c, 0⟩) := by decide

/-! ### Assembler (R77, R78) -/

theorem test_assemble :
    assemble ["RDREG F_TIER  ; comment", "CKUPD 0x00 -> 00/0000E1F0", "RDNEXT -> ERR_NOT_OPEN/00000000"] =
      some [⟨[.send 0xF000000013], none⟩, ⟨[.send 0x1100000000], some ⟨.ok, 0xE1F0⟩⟩,
        ⟨[.send 0x3100000000], some ⟨.errNotOpen, 0⟩⟩] := by decide +kernel

theorem test_assemble_pseudo :
    assemble ["BUILD 0xFFFFFFFF, 0x7FFFFFFF", "WARMUP 20", "CKBUF 49, 0b110010"] =
      some [⟨[.send 0x40FFFFFFFF, .send 0x417FFFFFFF, .send 0x4200000000], none⟩, ⟨[.warmup 20], none⟩,
        ⟨[.send 0x1100000031, .send 0x1100000032], none⟩] := by decide +kernel

/-- Digits of either case; `CKBUF` refuses what `CKUPD` makes an illegal word of (log entry 24). -/
theorem test_assemble_numbers :
    [number "0x1d0F".toList, number "0b101".toList, number "1021".toList, number "0b2".toList, number "0xG".toList] =
      [some 0x1D0F, some 5, some 1021, none, none] ∧
    assemble ["CKUPD 256"] = some [⟨[.send 0x1100000100], none⟩] ∧ assemble ["CKBUF 256"] = none := by decide +kernel

/-- An arrow with no response is read as no expected response; two responses are refused (log entry 24). -/
theorem test_assemble_arrow :
    assemble ["CKINIT ->"] = assemble ["CKINIT"] ∧ assemble ["CKINIT"] = some [⟨[.send 0x1000000000], none⟩] ∧
    assemble ["CKINIT -> OK/FFFF OK/FFFF"] = none := by decide +kernel

/-! ### Witnesses: states and operands that meet the hypotheses of the statements -/

/-- For `WordRuns`, `StepRunsTheDecodedCommand`, `IllegalWordsChangeNothing`, `CpaddrAndCptierStoreTheOperands`: a
state whose next input is any given command word. -/
theorem witness_command (op : Byte) (imm : Word) :
    ({ fresh [] with inputs := [.command (op ++ imm)] } : State).inputs = .command (op ++ imm) :: [] := rfl

/-- A command word that decodes, for `StepRunsTheDecodedCommand`. -/
theorem witness_decoded : (fresh []).offer 0x1000000000 = { fresh [] with inputs := [.command 0x1000000000] } ∧
    decode 0x1000000000 = .ok .ckinit := ⟨rfl, rfl⟩

/-- One word for each way of being illegal (`IllegalWordsChangeNothing`). -/
theorem witness_illegal :
    (0x00 : Byte).toNat ∉ [0x10, 0x11, 0x12, 0x13, 0x14, 0x15, 0x16, 0x20, 0x21, 0x28, 0x29, 0x30, 0x31, 0x32, 0x40,
      0x41, 0x42, 0x43, 0xF0] ∧
    (1 : Word).toNat ≠ 0 ∧ 2 ^ 1 ≤ (2 : Word).toNat ∧ 2 ^ 4 ≤ (0x10 : Word).toNat ∧ 2 ^ 8 ≤ (0x100 : Word).toNat ∧
    2 ^ 10 ≤ (0x400 : Word).toNat ∧ 2 ^ 16 ≤ (0x10000 : Word).toNat ∧ 2 ^ 23 ≤ (0x800000 : Word).toNat ∧
    (0x0B ≤ (0x0B : Word).toNat ∧ (0x0F : Word).toNat ≤ 0x0F ∧ 0x1A ≤ (0x1A : Word).toNat ∧
      (0x1F : Word).toNat ≤ 0x1F ∧ 0x23 ≤ (0x23 : Word).toNat) := by decide

/-- Two `CKFIN` in a row (`CkfinWritesTheFinishedValue`). -/
theorem witness_ckfin_twice : ∃ t u : State, exec .ckfin (fresh []) = .next t ∧ exec .ckfin t = .next u :=
  ⟨_, _, rfl, rfl⟩

/-- A polynomial with a non-zero constant term (`EveryTargetHasExactlyOneNonce`). -/
theorem witness_odd_poly : Config.poly.getLsbD 0 = true := by decide

/-- Two different bytes (`OneChangedByteChangesTheChecksum`). -/
theorem witness_changed_byte : (0 : Byte) ≠ 1 := by decide

/-- Two different registers that agree in their low 20 bits (`ASynchronisedStepRecoversTheBit`,
`UpperRegisterBitsAreUnread`). -/
theorem witness_low20 : low20 0x7E38E3 = low20 0x0E38E3 ∧ (0x7E38E3 : ShiftReg) ≠ 0x0E38E3 := by decide

/-- Twenty and twenty-three bits (`ScramblerRoundTrip`), a register bit inside the sequence and one before it
(`RegistersHoldTheLastBits`), a position (`OneWrongBitSpoilsThree`). -/
theorem witness_bits :
    20 ≤ (List.replicate 20 (0 : Bit)).length ∧ 23 ≤ (List.replicate 23 (0 : Bit)).length ∧
    22 < (List.replicate 23 (0 : Bit)).length ∧ ¬ 22 < (List.replicate 22 (0 : Bit)).length ∧
    50 < (List.replicate 30 (0 : Bit)).length + 1 + (List.replicate 20 (0 : Bit)).length := by decide

/-- Registers in the two lock-up classes (`LockUpGivesAConstantOutput`). -/
theorem witness_lock_up : low20 0x0FFFFF = 0xFFFFF ∧ low20 0x700000 = 0 := by decide

/-- A recurrent value (`ZeroInputSettlesInThreeSteps`) and a step count (`ScramblerCycleLength`). -/
theorem witness_recurrent : Recurrent 0x0E3723 ∧ 0 < 1048574 ∧ 1048574 < 1048575 := by
  refine ⟨?_, by decide⟩
  unfold Recurrent
  decide

/-- The five statuses in which `RDNEXT` does not run (`RdnextIsRefusedOrSticky`). -/
theorem witness_rst (r : Rst) : ({ fresh [] with rst := r } : State).rst = r := rfl

/-- The three ends of an image (`RdnextAtTheEndOfTheImage`). -/
theorem witness_image_end :
    (reading []).rst = .run ∧ (reading []).cur.toNat = (reading []).src.length ∧
    ((reading [0x1A]).cur.toNat + 1 = (reading [0x1A]).src.length ∧ (reading [0x1A]).imageByte 0 = 0x1A) ∧
    ((reading [0x00]).cur.toNat + 1 = (reading [0x00]).src.length ∧ (reading [0x00]).imageByte 0 ≠ 0x1A) := by decide

/-- Prefixes at the borders of the ranges: sentinel, 1025, 17 and 0 (`RdnextChecksTheLengthPrefix`). -/
theorem witness_prefixes :
    (reading [0x1A, 0x1A]).prefixAtCursor = 0x1A1A ∧ (reading [0x01, 0x04]).prefixAtCursor = 1025 ∧
    (reading [0x11, 0x00]).prefixAtCursor = 17 ∧ (reading [0x00, 0x00]).prefixAtCursor = 0 ∧
    (reading [0x11, 0x00]).cur.toNat + 2 ≤ (reading [0x11, 0x00]).src.length := by decide

/-- Short bodies: no byte left, first byte `0x1A`, first byte another, lengths 18 and 1024
(`RdnextJudgesAShortBody`). -/
theorem witness_short_bodies :
    [[0x12, 0x00], [0x12, 0x00, 0x1A], [0x12, 0x00, 0x00], [0x00, 0x04, 0x1A]].all (fun image =>
      decide ((reading image).cur.toNat + 2 ≤ (reading image).src.length ∧ 18 ≤ (reading image).prefixAtCursor ∧
        (reading image).prefixAtCursor ≤ 1024 ∧
        (reading image).src.length < (reading image).cur.toNat + 2 + (reading image).prefixAtCursor)) = true := by decide

/-- Whole bodies of the lengths 18 and 1024 (`RdnextYieldsTheSegment`). -/
theorem witness_whole_bodies :
    [good18, [0x00, 0x04] ++ List.replicate 1024 0x1A].all (fun image =>
      (reading image).seg.wf segSize &&
      decide (18 ≤ (reading image).prefixAtCursor ∧ (reading image).prefixAtCursor ≤ 1024 ∧
        (reading image).cur.toNat + 2 + (reading image).prefixAtCursor ≤ (reading image).src.length)) = true := by
  decide +kernel

/-- A segment held (`FieldViewsOfTheSegment`, `RdregReadsTheRegisterMap`). -/
theorem witness_segment_held : 18 ≤ viewing.slen.toNat ∧ viewing.flags.segv = true := by decide

/-- A state that holds a segment laid out from its fields (`SegmentFieldsReadBack`). -/
theorem witness_laid_out :
    let h : SegHeader := ⟨0xABCDEF, 0x34, 0x56, 0x12345678, 0x9ABC, 0xDE, 0x1234, 0xF00D⟩
    ([1, 2, 3] : List Byte).length ≤ 1006 ∧ viewing.slen = BitVec.ofNat 11 (18 + 3) ∧
    viewing.segment = segmentBytes h [1, 2, 3] := by decide +kernel

/-- Operations that answer a next state (`ReaderStatusMoves`, `CursorOnlyMovesForward`, `OnlyTheListedOperationsWrite`,
`OutcomesArePrecise`), from a running reader and from a closed one. -/
theorem witness_next :
    (∃ t, exec .rdopen (fresh []) = .next t) ∧ (∃ t, exec .rdnext (reading good18) = .next t ∧ t.flags.segv = true) ∧
    (∃ t, exec .rdnext (fresh []) = .next t ∧ t.responses = [⟨.errNotOpen, 0⟩]) ∧
    (∃ t, exec .rdnext (reading []) = .next t ∧ t.responses = [⟨.eos, 0⟩]) ∧
    (∃ t, exec (.ckld 5) (fresh []) = .next t) :=
  ⟨⟨_, rfl⟩, ⟨_, rfl, rfl⟩, ⟨_, rfl, rfl⟩, ⟨_, rfl, rfl⟩, ⟨_, rfl⟩⟩

/-- A step that ends closed, by a reset input (`ReaderStatusMoves`, `ResetAndIdleSteps`), and a state with no input. -/
theorem witness_reset_step :
    (∃ t, step { reading [] with inputs := [.reset] } = .next t ∧ t.rst = .closed) ∧ (fresh []).inputs = [] :=
  ⟨⟨_, rfl, rfl⟩, rfl⟩

/-- A container of two bodies, with no tail and with a sentinel and more (`AContainerIsReadBack`). -/
theorem witness_container :
    (∀ body ∈ [good18.drop 2, viewBody], 18 ≤ body.length ∧ body.length ≤ 1024) ∧
    (containerBytes [good18.drop 2, viewBody] ++ []).length < 2 ^ 32 ∧
    (containerBytes [good18.drop 2, viewBody] ++ [0x1A, 0x1A, 0x55]).length < 2 ^ 32 := by decide

/-- An address with bit 31 set and one with it clear (`CpbuildBuildsAndSearches`, `ABuiltPacketValidatesAsASegment`). -/
theorem witness_addresses :
    (fresh []).hdr.wf hdrSize = true ∧ (fresh []).target = 0x1D0F ∧ (0x80000000 : Word).getLsbD 31 = true ∧
    (0x7FFFFFFF : Word).getLsbD 31 = false := by decide

/-- A build for another target than the default, and the one hit it records (`ABuiltPacketValidatesAsASegment`). -/
theorem witness_build_with_hit :
    let s : State := { fresh [] with boxaddr := 0xFFFFFFFF, tierval := 0x7FFFFFFF, target := 0x1234 }
    ∃ t, execCpbuild s = .next t ∧ 1 ≤ t.ncnt.toNat ∧ t.hitBit (0x8D8E : Half).toNat = true := by
  intro s
  have hits : s.hitsFrom s.builtHcrc = [0x8D8E] := by
    rw [show s.builtHcrc = 0x4569 by decide +kernel]
    exact (solve_fast _ _ _ [0x56] (by decide +kernel)).trans (by decide +kernel)
  refine ⟨s.buildPacket.answer .ok (s.buildPacket.ncnt.setWidth 32), if_pos (by decide), ?_, ?_⟩
  · rw [State.answer_ncnt, State.buildPacket_ncnt, hits]
    decide
  · rw [State.hitBit, State.answer_hitmap, State.buildPacket_hitmap, hits]
    decide

/-- Register numbers at the borders of the ranges, and states with no segment and no header
(`RdregReadsTheRegisterMap`). -/
theorem witness_register_numbers :
    (fresh []).flags.segv = false ∧ (fresh []).flags.hdrv = false ∧ built.flags.hdrv = true ∧
    (0x0A : Byte).toNat = 0x0A ∧ 0x10 ≤ (0x10 : Byte).toNat ∧ (0x19 : Byte).toNat ≤ 0x19 ∧
    0x0B ≤ (0x0B : Byte).toNat ∧ (0x0F : Byte).toNat ≤ 0x0F ∧ 0x1A ≤ (0x1A : Byte).toNat ∧
    (0x1F : Byte).toNat ≤ 0x1F ∧ 0x23 ≤ (0x23 : Byte).toNat ∧ (0x22 : Byte).toNat = 0x22 := by decide

/-- A word that decodes and matches its row (`EncodeOfDecodeIsTheWord`). -/
theorem witness_row_word :
    decode 0x32000003FF = .ok (.sgldb 1023) ∧
    (0x32000003FF : Word40) &&& (Instr.sgldb 0).row.mask = (Instr.sgldb 0).row.pattern := ⟨rfl, by decide⟩

/-- A state that meets the invariant with a segment held and a header built (`EveryStepKeepsTheInvariant`,
`UnreadableBytesCannotBeSeen`). -/
theorem witness_invariant : built.Inv := by
  refine ⟨⟨by decide +kernel, by decide +kernel⟩, ⟨List.Pairwise.nil, by simp [built, viewing, reading, fresh, State.resetWith],
    by decide, by decide⟩, ⟨by decide, by decide, by decide⟩, ⟨fun h => absurd h (by decide), fun _ => ?_⟩, fun _ => ?_⟩
  · exact ⟨by decide, by decide, by decide, by decide, by decide +kernel, by decide +kernel, by decide +kernel⟩
  · exact ⟨⟨0xFFFFFFFF, 0x7FFFFFFF, by decide, by decide +kernel⟩, by decide +kernel⟩

/-- An image shorter than `2^32` bytes (`ResetMeetsTheInvariant`, `CursorOnlyMovesForward`). -/
theorem witness_image : good18.length < 2 ^ 32 ∧ (reading good18).cur.toNat ≤ (reading good18).src.length := by decide

/-- Two states that meet the invariant, differ, and look the same to the host (`UnreadableBytesCannotBeSeen`). -/
theorem witness_same_to_host :
    (fresh []).Inv ∧ ({ fresh [] with seg := [(5, 1)] } : State).Inv ∧
    (fresh []).SameToHost { fresh [] with seg := [(5, 1)] } ∧ fresh [] ≠ { fresh [] with seg := [(5, 1)] } := by
  refine ⟨⟨⟨rfl, rfl⟩, ⟨List.Pairwise.nil, fun n hn => absurd hn (List.not_mem_nil), rfl, rfl⟩,
      ⟨by decide, by decide, by decide⟩, ⟨fun _ => ⟨rfl, rfl⟩, fun h => absurd h (by decide)⟩,
      fun h => absurd h (by decide)⟩,
    ⟨⟨rfl, rfl⟩, ⟨List.Pairwise.nil, fun n hn => absurd hn (List.not_mem_nil), rfl, rfl⟩,
      ⟨by decide, by decide, by decide⟩, ⟨fun _ => ⟨rfl, rfl⟩, fun h => absurd h (by decide)⟩,
      fun h => absurd h (by decide)⟩,
    ⟨rfl, fun h => absurd h (by decide), fun h => absurd h (by decide)⟩, by decide⟩

/-- An AND-mode and an XOR-mode tier (`AddressAndTierPredicates`). -/
theorem witness_tiers : (0x00000005 : Word).getLsbD 31 = false ∧ (0x80000005 : Word).getLsbD 31 = true := by decide

end Sys2Proof.Tests
end

-- ==== The step and the command port (`00_scope.md`) ====
section
/-! What a step does with a command word that decodes (R8, R79). -/

namespace Sys2Proof.Machine

/-- A command word that decodes is fetched as its operation, with the word taken off the inputs. -/
theorem fetch_of_decode_ok {s : State} {w : Word40} {rest : List Input} {i : Instr}
    (h : s.inputs = .command w :: rest) (hd : decode w = .ok i) :
    fetch s = .run i { s with inputs := rest } := by
  rw [fetch_command h, hd]

theorem step_of_fetch_run {s t : State} {i : Instr} (h : fetch s = .run i t) : step s = exec i t := by
  rw [step, h]

/-- Settles O46: the decoded operation is what `fetch` finds, and `step` runs what `fetch` finds. -/
theorem stepRunsTheDecodedCommand : Obligations.StepRunsTheDecodedCommand := by
  intro s w rest i hinputs hdecode
  exact step_of_fetch_run (fetch_of_decode_ok hinputs hdecode)

end Sys2Proof.Machine
end

-- ==== What an operation writes (`10_state.md`) ====
section
/-! The cursor under an advance (R19), and what each operation leaves before it answers (R10, column "W by"). -/

namespace Sys2Proof.Machine

/-! ### The cursor (`10_state.md` rule R19) -/

@[simp] theorem State.advance_zero (s : State) : s.advance 0 = s := by
  simp [State.advance]

theorem State.advance_cur_toNat {s : State} {n : Nat} (hlen : s.src.length < 2 ^ 32) (hn : n ≤ s.avail) :
    (s.advance n).cur.toNat = s.cur.toNat + n := by
  have hcur := s.cur.isLt
  simp only [State.avail, State.srcLen] at hn
  rw [State.advance_cur, BitVec.toNat_add, BitVec.toNat_ofNat]
  omega

theorem State.advance_avail {s : State} {n : Nat} (hlen : s.src.length < 2 ^ 32) (hn : n ≤ s.avail) :
    (s.advance n).avail = s.avail - n := by
  rw [State.avail, State.advance_cur_toNat hlen hn, State.avail, State.srcLen, State.srcLen, State.advance_src,
    Nat.sub_add_eq]

/-- A yield consumes the 2 length bytes and the body. -/
theorem State.yielded_cur_toNat {s : State} {len : Nat} (hlen : s.src.length < 2 ^ 32) (h2 : 2 ≤ s.avail)
    (hav : len ≤ (s.advance 2).avail) : ((s.advance 2).yieldSegment len).cur.toNat = s.cur.toNat + 2 + len :=
  (State.advance_cur_toNat (s := s.advance 2) hlen hav).trans (by rw [State.advance_cur_toNat hlen h2])

/-! ### What an operation writes before it answers -/

/-- `Writes i s u`: the operation `i`, run from `s`, can leave `u`, but for its response. -/
inductive Writes : Instr → State → State → Prop where
  /-- A refusal, a read or a sticky repeat; a running reader's `RDNEXT` is never one. -/
  | nothing {i : Instr} {s : State} (h : i = .rdnext → s.rst ≠ .run) : Writes i s s
  | crc {i : Instr} {s : State}
      (h : i = .ckinit ∨ (∃ b, i = .ckupd b) ∨ i = .ckfin ∨ ∃ v, i = .ckld v) (c : Half) :
      Writes i s { s with crc := c }
  | target {s : State} (v : Half) : Writes (.cktgt v) s { s with target := v }
  | searched {s : State} : Writes .cksolve s (s.search s.crc)
  | scr {i : Instr} {s : State} (h : (∃ v, i = .scrld v) ∨ ∃ b, i = .scrbit b) (r : ShiftReg) :
      Writes i s { s with scr := r }
  | dsc {i : Instr} {s : State} (h : (∃ v, i = .dscld v) ∨ ∃ b, i = .dscbit b) (r : ShiftReg) :
      Writes i s { s with dsc := r }
  | opened {s : State} : Writes .rdopen s s.opened
  /-- A terminal outcome, after `n` length bytes. -/
  | ended {s : State} (n : Nat) (r : Rst) (hrun : s.rst = .run) (hr : r ≠ .closed) (hn : n ≤ s.avail) :
      Writes .rdnext s ((s.advance n).terminated r)
  | yielded {s : State} (len : Nat) (hrun : s.rst = .run) (h2 : 2 ≤ s.avail) (h18 : 18 ≤ len) (h1024 : len ≤ 1024)
      (hav : len ≤ (s.advance 2).avail) : Writes .rdnext s ((s.advance 2).yieldSegment len)
  | boxaddr {s : State} (a : Word) : Writes (.cpaddr a) s { s with boxaddr := a }
  | tierval {s : State} (v : Word) : Writes (.cptier v) s { s with tierval := v }
  | built {s : State} (h : s.boxaddr.msb = true) : Writes .cpbuild s s.buildPacket

theorem TerminalPair.ne_closed {r : Rst} {c : Code} (h : TerminalPair r c) : r ≠ .closed := by
  rcases h with ⟨rfl, -⟩ | ⟨rfl, -⟩ | ⟨rfl, -⟩ | ⟨rfl, -⟩ <;> decide

theorem TerminalPair.ne_run {r : Rst} {c : Code} (h : TerminalPair r c) : r ≠ .run := by
  rcases h with ⟨rfl, -⟩ | ⟨rfl, -⟩ | ⟨rfl, -⟩ | ⟨rfl, -⟩ <;> decide

theorem execRdnext_writes {s t : State} (h : execRdnext s = .next t) :
    ∃ u c v, Writes .rdnext s u ∧ t = u.answer c v := by
  obtain ⟨hst, rfl⟩ | ⟨c, hp, rfl⟩ | ⟨hrun, r, c, hp, rfl | ⟨h2, rfl⟩⟩ |
    ⟨hrun, h2, len, h18, h1024, hav, -, rfl⟩ := execRdnext_cases h
  · exact ⟨_, _, _, .nothing fun _ => by rw [hst]; decide, rfl⟩
  · exact ⟨_, _, _, .nothing fun _ => hp.ne_run, rfl⟩
  · exact ⟨_, _, _, .ended 0 r hrun hp.ne_closed (Nat.zero_le _), by rw [State.advance_zero]⟩
  · exact ⟨_, _, _, .ended 2 r hrun hp.ne_closed h2, rfl⟩
  · exact ⟨_, _, _, .yielded len hrun h2 h18 h1024 hav, rfl⟩

/-- Every operation writes as `Writes` says, then gives one response. -/
theorem exec_writes {i : Instr} {s t : State} (h : exec i s = .next t) :
    ∃ u c v, Writes i s u ∧ t = u.answer c v := by
  cases i with
  | ckinit => exact ⟨_, _, _, .crc (.inl rfl) _, (setCrc_eq_next ..).1 h⟩
  | ckupd b => exact ⟨_, _, _, .crc (.inr (.inl ⟨b, rfl⟩)) _, (setCrc_eq_next ..).1 h⟩
  | ckfin => exact ⟨_, _, _, .crc (.inr (.inr (.inl rfl))) _, (setCrc_eq_next ..).1 h⟩
  | ckld v => exact ⟨_, _, _, .crc (.inr (.inr (.inr ⟨v, rfl⟩))) _, (setCrc_eq_next ..).1 h⟩
  | cktgt v => exact ⟨_, _, _, .target v, (respond_eq_next ..).1 h⟩
  | cksolve => exact ⟨_, _, _, .searched, (execCksolve_eq_next ..).1 h⟩
  | ckhit n => exact ⟨_, _, _, .nothing nofun, (respond_eq_next ..).1 h⟩
  | scrld v => exact ⟨_, _, _, .scr (.inl ⟨v, rfl⟩) _, (respond_eq_next ..).1 h⟩
  | scrbit b => exact ⟨_, _, _, .scr (.inr ⟨b, rfl⟩) _, (respond_eq_next ..).1 h⟩
  | dscld v => exact ⟨_, _, _, .dsc (.inl ⟨v, rfl⟩) _, (respond_eq_next ..).1 h⟩
  | dscbit b => exact ⟨_, _, _, .dsc (.inr ⟨b, rfl⟩) _, (respond_eq_next ..).1 h⟩
  | rdopen => exact ⟨_, _, _, .opened, (execRdopen_eq_next ..).1 h⟩
  | rdnext => exact execRdnext_writes h
  | sgldb off =>
    obtain ⟨-, ht⟩ | ⟨-, -, ht⟩ := execSgldb_cases h <;> exact ⟨_, _, _, .nothing nofun, ht⟩
  | cpaddr a => exact ⟨_, _, _, .boxaddr a, (respond_eq_next ..).1 h⟩
  | cptier v => exact ⟨_, _, _, .tierval v, (respond_eq_next ..).1 h⟩
  | cpbuild =>
    obtain ⟨-, ht⟩ | ⟨hmsb, ht⟩ := execCpbuild_cases h
    · exact ⟨_, _, _, .nothing nofun, ht⟩
    · exact ⟨_, _, _, .built hmsb, ht⟩
  | cpldb off =>
    obtain ⟨-, ht⟩ | ⟨-, ht⟩ := execCpldb_cases h <;> exact ⟨_, _, _, .nothing nofun, ht⟩
  | rdreg r =>
    obtain ⟨-, ht⟩ | ⟨-, ht⟩ | ⟨v, -, -, -, ht⟩ := execRdreg_cases h <;> exact ⟨_, _, _, .nothing nofun, ht⟩

end Sys2Proof.Machine
end

-- ==== The frame of every operation (`10_state.md`) ====
section
/-! Which operation writes which register (R10, R40), how the cursor moves (R19, R131), and the reset values (R30). -/

namespace Sys2Proof.Machine

theorem Writes.cur_le_length {i : Instr} {s u : State} (h : Writes i s u) (hlen : s.src.length < 2 ^ 32)
    (hcur : s.cur.toNat ≤ s.src.length) : u.cur.toNat ≤ u.src.length := by
  cases h with
  | nothing | crc | target | searched | scr | dsc | boxaddr | tierval => exact hcur
  | built => rwa [State.buildPacket_cur, State.buildPacket_src]
  | opened => exact Nat.zero_le _
  | ended n r hrun hr hn =>
    rw [State.terminated_cur, State.terminated_src, State.advance_src, State.advance_cur_toNat hlen hn]
    simp only [State.avail, State.srcLen] at hn
    omega
  | yielded len hrun h2 h18 h1024 hav =>
    have hyield := State.yielded_cur_toNat hlen h2 hav
    rw [State.advance_avail hlen h2] at hav
    simp only [State.avail, State.srcLen] at h2 hav
    rw [hyield, State.yieldSegment_src, State.advance_src]
    omega

theorem Writes.cur_le {i : Instr} {s u : State} (h : Writes i s u) (hlen : s.src.length < 2 ^ 32)
    (hi : i ≠ .rdopen) : s.cur.toNat ≤ u.cur.toNat := by
  cases h with
  | nothing | crc | target | searched | scr | dsc | boxaddr | tierval => exact Nat.le_refl _
  | built => rw [State.buildPacket_cur]
  | opened => exact absurd rfl hi
  | ended n r hrun hr hn =>
    rw [State.terminated_cur, State.advance_cur_toNat hlen hn]
    omega
  | yielded len hrun h2 h18 h1024 hav =>
    rw [State.yielded_cur_toNat hlen h2 hav]
    omega

/-- A running reader that holds a segment after `RDNEXT` has yielded it: 2 length bytes and a body of at least
18 (R133 (5)). -/
theorem Writes.cur_add_le_of_yield {s u : State} (h : Writes .rdnext s u) (hlen : s.src.length < 2 ^ 32)
    (hrun : s.rst = .run) (hsegv : u.flags.segv = true) : s.cur.toNat + 20 ≤ u.cur.toNat := by
  cases h with
  | nothing hno => exact absurd hrun (hno rfl)
  | crc hi | scr hi | dsc hi => simp at hi
  | ended => exact absurd hsegv Bool.false_ne_true
  | yielded len hrun h2 h18 h1024 hav =>
    rw [State.yielded_cur_toNat hlen h2 hav]
    omega

/-- Settles O38, from the three facts about the cursor under `Writes`. -/
theorem cursorOnlyMovesForward : Obligations.CursorOnlyMovesForward := by
  intro i s t hlen hcur hexec
  obtain ⟨u, c, v, hw, rfl⟩ := exec_writes hexec
  refine ⟨hw.cur_le_length hlen hcur, hw.cur_le hlen, ?_⟩
  rintro rfl hrun hsegv
  exact hw.cur_add_le_of_yield hlen hrun hsegv

/-- Settles O54: row by row of `Writes`, what is not listed stays. -/
theorem onlyTheListedOperationsWrite : Obligations.OnlyTheListedOperationsWrite := by
  intro i s t hexec
  obtain ⟨u, c, v, hw, rfl⟩ := exec_writes hexec
  cases hw with
  | nothing | target | opened | ended | yielded | boxaddr | tierval => simp [State.hitBit]
  | crc hi | scr hi | dsc hi => simp [State.hitBit, hi]
  | searched | built => simp

/-- Settles O48: each value is the field `State.resetWith` gives. -/
theorem resetPutsEveryValue : Obligations.ResetPutsEveryValue := by
  have hflags : Flags.bits ⟨false, false, false⟩ = 0 := by decide
  exact ⟨fun _ _ _ => ⟨rfl, rfl, rfl, rfl, fun _ => rfl, rfl, rfl, rfl, rfl, rfl, hflags, rfl, rfl, rfl, rfl⟩, rfl⟩

end Sys2Proof.Machine
end

-- ==== The low bits of the shift registers (`10_state.md`) ====
section
/-! No output of the scrambler or the descrambler depends on a register bit above 19 (R29). -/

namespace Sys2Proof.Machine

/-! ### The low 20 bits of a shift register (`10_state.md` rule R29) -/

theorem low20_eq_iff (s s' : ShiftReg) : low20 s = low20 s' ↔ ∀ i < 20, s.getLsbD i = s'.getLsbD i := by
  rw [BitVec.eq_of_getLsbD_eq_iff]
  refine forall₂_congr fun i hi => ?_
  simp [low20, hi]

theorem getLsbD_shiftIn (s : ShiftReg) (b : Bit) {i : Nat} (hi : i < 23) :
    (shiftIn s b).getLsbD i = if i = 0 then b.getLsbD 0 else s.getLsbD (i - 1) := by
  cases i with
  | zero => simp [shiftIn]
  | succ i => simp [shiftIn, hi, -BitVec.getLsbD_eq_getElem]

theorem tap_congr {s s' : ShiftReg} {i : Nat} (h : s.getLsbD i = s'.getLsbD i) : tap s i = tap s' i := by
  apply BitVec.eq_of_getLsbD_eq
  intro j hj
  obtain rfl : j = 0 := by omega
  simpa [tap] using h

/-- A shift brings bit 19 to bit 20 and drops no low bit. -/
theorem getLsbD_shiftIn_congr {s s' : ShiftReg} (h : low20 s = low20 s') (b : Bit) {i : Nat} (hi : i < 21) :
    (shiftIn s b).getLsbD i = (shiftIn s' b).getLsbD i := by
  rw [getLsbD_shiftIn s b (by omega), getLsbD_shiftIn s' b (by omega)]
  split
  · rfl
  · exact (low20_eq_iff s s').1 h (i - 1) (by omega)

theorem low20_shiftIn_congr {s s' : ShiftReg} (h : low20 s = low20 s') (b : Bit) :
    low20 (shiftIn s b) = low20 (shiftIn s' b) :=
  (low20_eq_iff ..).2 fun _ hi => getLsbD_shiftIn_congr h b (by omega)

/-- A step function whose output bit and next low 20 bits depend on the low 20 bits and the input bit only. -/
def Low20Step (f : ShiftReg → Bit → ShiftReg × Bit) : Prop :=
  ∀ s s' b, low20 s = low20 s' → (f s b).2 = (f s' b).2 ∧ low20 (f s b).1 = low20 (f s' b).1

theorem scrStep_low20Step : Low20Step scrStep := by
  intro s s' b h
  have hbits := (low20_eq_iff s s').1 h
  have hout : (scrStep s b).2 = (scrStep s' b).2 := by
    simp only [scrStep, tap_congr (hbits 2 (by decide)), tap_congr (hbits 19 (by decide))]
  refine ⟨hout, ?_⟩
  calc low20 (scrStep s b).1
      = low20 (shiftIn s (scrStep s b).2) := rfl
    _ = low20 (shiftIn s' (scrStep s' b).2) := by rw [hout, low20_shiftIn_congr h]

theorem dscStep_low20Step : Low20Step dscStep := by
  intro s s' b h
  refine ⟨?_, low20_shiftIn_congr h b⟩
  simp only [dscStep, tap_congr (getLsbD_shiftIn_congr h b (i := 3) (by decide)),
    tap_congr (getLsbD_shiftIn_congr h b (i := 20) (by decide))]

theorem Low20Step.runBits_outputs {f : ShiftReg → Bit → ShiftReg × Bit} (hf : Low20Step f) (bits : List Bit) :
    ∀ s s', low20 s = low20 s' → (runBits f s bits).2 = (runBits f s' bits).2 := by
  induction bits with
  | nil => exact fun _ _ _ => rfl
  | cons b bits ih =>
    intro s s' h
    obtain ⟨hout, hlow⟩ := hf s s' b h
    rw [runBits, runBits, hout, ih _ _ hlow]

/-- Settles O23: both step functions read bits below 20 only and keep the agreement there. -/
theorem upperRegisterBitsAreUnread : Obligations.UpperRegisterBitsAreUnread := fun s s' bits h =>
  ⟨scrStep_low20Step.runBits_outputs bits s s' h, dscStep_low20Step.runBits_outputs bits s s' h⟩

end Sys2Proof.Machine
end

-- ==== The invariant (`10_state.md`) ====
section
/-! Reset meets the invariant and every step keeps it (R14, R19 to R22, R26, R129). -/

namespace Sys2Proof.Machine

/-! ### What `SEG` and `HDR` hold after a yield and after a build -/

theorem State.readBytes_yieldedSeg {s : State} {len n : Nat} (hwf : s.seg.wf segSize = true) (h1024 : len ≤ 1024)
    (hav : len ≤ s.avail) (hn : n ≤ len) : (s.yieldedSeg len).readBytes 0 n = (s.srcBytes len).take n := by
  have hlen := s.length_srcBytes len hav
  exact Memory.readBytes_writeBytes hwf _ 0 n (by rw [hlen, segSize]; omega) (by omega)

theorem State.read_yieldedSeg {s : State} {len a : Nat} (hwf : s.seg.wf segSize = true) (h1024 : len ≤ 1024)
    (hav : len ≤ s.avail) (ha : a < len) : (s.yieldedSeg len).read a = (s.srcBytes len).getD a 0 := by
  have hlen := s.length_srcBytes len hav
  rw [State.yieldedSeg, Memory.read_writeBytes hwf _ 0 a (by rw [hlen, segSize]; omega),
    if_pos ⟨Nat.zero_le a, by omega⟩, Nat.sub_zero]

theorem State.yieldedScrc_eq {s : State} {len : Nat} (hwf : s.seg.wf segSize = true) (h1024 : len ≤ 1024)
    (hav : len ≤ s.avail) :
    s.yieldedScrc len = crcBytes Config.poly crcInit ((s.srcBytes len).take (len - Config.trlLen)) := by
  rw [State.yieldedScrc, State.readBytes_yieldedSeg hwf h1024 hav (Nat.sub_le ..)]

theorem State.readBytes_builtHdr {s : State} (hwf : s.hdr.wf hdrSize = true) :
    s.builtHdr.readBytes 0 16 = headerBytes s.boxaddr s.tierval :=
  Memory.readBytes_writeBytes hwf _ 0 16 (Nat.le_refl _) (Nat.le_refl _)

theorem State.read_builtHdr {s : State} {a : Nat} (hwf : s.hdr.wf hdrSize = true) (ha : a < 16) :
    s.builtHdr.read a = (headerBytes s.boxaddr s.tierval).getD a 0 := by
  rw [State.builtHdr, Memory.read_writeBytes hwf _ 0 a (by rw [length_headerBytes, hdrSize]),
    if_pos ⟨Nat.zero_le a, by rw [length_headerBytes]; omega⟩, Nat.sub_zero]

theorem State.builtHcrc_eq {s : State} (hwf : s.hdr.wf hdrSize = true) :
    s.builtHcrc = crcBytes Config.poly crcInit (headerBytes s.boxaddr s.tierval) := by
  rw [State.builtHcrc, Config.hdrLen, State.readBytes_builtHdr hwf]

/-! ### Each part of the invariant under what an operation writes -/

theorem State.SearchWf.search (s : State) (c : Half) : (s.search c).SearchWf := by
  have hlength := length_solve_le Config.poly c s.target
  have hhead := headD_solve_lt Config.poly c s.target
  refine ⟨?_, fun n hn => ?_, ?_, ?_⟩
  · exact solve_rising ..
  · exact ((mem_solve ..).1 hn).1
  · rw [State.search_ncnt, State.search_hitmap, State.hitsFrom, BitVec.toNat_ofNat]
    omega
  · rw [State.search_nonce, State.search_hitmap, State.hitsFrom, BitVec.toNat_ofNat]
    omega

theorem State.HeaderWf.buildHeader {s : State} (hwf : s.hdr.wf hdrSize = true) (hmsb : s.boxaddr.msb = true) :
    s.buildHeader.HeaderWf := by
  intro _
  rw [State.buildHeader_hdr, State.buildHeader_hcrc]
  exact ⟨⟨s.boxaddr, s.tierval, hmsb, State.readBytes_builtHdr hwf⟩, State.builtHcrc.eq_1 s⟩

/-- `RDOPEN` and a terminal outcome leave no segment. -/
theorem State.SegmentWf.of_no_segment {s : State} (hflags : s.flags.segv = false) (hck : s.flags.ckok = false)
    (hslen : s.slen = 0) : s.SegmentWf :=
  ⟨fun _ => ⟨hslen, hck⟩, fun h => by simp [hflags] at h⟩

/-- A yield leaves the segment that `SegmentWf` describes: the bytes just before the new cursor (R129, R130). -/
theorem State.SegmentWf.yieldSegment {s : State} {len : Nat} (hwf : s.seg.wf segSize = true) (hrun : s.rst = .run)
    (hlen : s.src.length < 2 ^ 32) (hcur : 2 ≤ s.cur.toNat) (h18 : 18 ≤ len) (h1024 : len ≤ 1024)
    (hav : len ≤ s.avail) : (s.yieldSegment len).SegmentWf := by
  have hslen : (s.yieldSegment len).slen.toNat = len := by
    rw [State.yieldSegment_slen, BitVec.toNat_ofNat]
    omega
  have hcur' : (s.yieldSegment len).cur.toNat = s.cur.toNat + len := State.advance_cur_toNat hlen hav
  have hsegment : (s.yieldSegment len).segment = s.srcBytes len := by
    rw [State.segment, hslen, State.yieldSegment_seg, State.readBytes_yieldedSeg hwf h1024 hav (Nat.le_refl _),
      List.take_of_length_le (s.length_srcBytes len hav).le]
  have htrailer : (s.yieldSegment len).fTrailer = s.yieldedTrailer len := by
    rw [State.fTrailer, hslen, State.segByte, State.segByte, State.yieldSegment_seg, State.yieldedTrailer]
  refine ⟨fun h => by simp at h, fun _ => ⟨hrun, by omega, by omega, by omega, ?_, ?_, ?_⟩⟩
  · rw [hsegment, hslen, hcur', Nat.add_sub_cancel]
    rfl
  · rw [hsegment, hslen]
    exact State.yieldedScrc_eq hwf h1024 hav
  · rw [htrailer, State.yieldSegment_flags, Flags.yielded_ckok, State.yieldSegment_scrc, State.yieldedMatch, beq_iff_eq]

theorem State.Inv.search {s : State} (h : s.Inv) (c : Half) : (s.search c).Inv := by
  obtain ⟨hmemories, -, hcursor, hsegment, hheader⟩ := h
  exact ⟨hmemories, .search s c, hcursor, hsegment, hheader⟩

theorem State.Inv.buildHeader {s : State} (h : s.Inv) (hmsb : s.boxaddr.msb = true) : s.buildHeader.Inv := by
  obtain ⟨⟨hseg, hhdr⟩, hsearch, hcursor, hsegment, -⟩ := h
  refine ⟨⟨hseg, ?_⟩, hsearch, hcursor, hsegment, .buildHeader hhdr hmsb⟩
  rw [State.buildHeader_hdr]
  exact State.builtHdr_wf hhdr

/-- What an operation writes keeps the invariant. -/
theorem Writes.inv {i : Instr} {s u : State} (h : Writes i s u) (hinv : s.Inv) : u.Inv := by
  have ⟨⟨hseg, hhdr⟩, hsearch, ⟨hlen, hcur, _⟩, _, hheader⟩ := hinv
  have hcur' := h.cur_le_length hlen hcur
  cases h with
  | nothing | crc | target | scr | dsc | boxaddr | tierval => exact hinv
  | searched => exact hinv.search s.crc
  | opened => exact ⟨⟨hseg, hhdr⟩, hsearch, ⟨hlen, hcur', nofun⟩, .of_no_segment rfl rfl rfl, hheader⟩
  | ended n r hrun hr hn =>
    exact ⟨⟨hseg, hhdr⟩, hsearch, ⟨hlen, hcur', fun hc => absurd hc hr⟩, .of_no_segment rfl rfl rfl, hheader⟩
  | yielded len hrun h2 h18 h1024 hav =>
    have hcur2 := State.advance_cur_toNat hlen h2
    refine ⟨⟨State.yieldedSeg_wf (s := s.advance 2) hseg h1024, hhdr⟩, hsearch, ⟨hlen, hcur', fun hc => ?_⟩,
      .yieldSegment hseg hrun hlen (by omega) h18 h1024 hav, hheader⟩
    exact absurd (hrun.symm.trans hc) (by decide)
  | built hmsb => exact (hinv.buildHeader hmsb).search s.builtHcrc

/-- A response is no part of the invariant. -/
theorem State.Inv.answer {s : State} (h : s.Inv) (c : Code) (v : Word) : (s.answer c v).Inv := h

/-- The inputs to come are no part of the invariant. -/
theorem State.Inv.with_inputs {s : State} (h : s.Inv) (rest : List Input) : ({ s with inputs := rest } : State).Inv := h

theorem exec_inv {i : Instr} {s t : State} (h : exec i s = .next t) (hinv : s.Inv) : t.Inv := by
  obtain ⟨u, c, v, hw, rfl⟩ := exec_writes h
  exact (hw.inv hinv).answer c v

theorem State.inv_resetWith {image : List Byte} (a b : ShiftReg) (h : image.length < 2 ^ 32) :
    (State.resetWith image a b).Inv :=
  ⟨⟨rfl, rfl⟩, ⟨List.Pairwise.nil, nofun, rfl, rfl⟩, ⟨h, Nat.zero_le _, fun _ => rfl⟩,
    .of_no_segment rfl rfl rfl, nofun⟩

theorem length_configSrc : Config.src.length < 2 ^ 32 := by
  rw [Config.src, List.length_take]
  omega

/-- Settles O53: the state after reset meets every part of the invariant when the image fits the cursor. -/
theorem resetMeetsTheInvariant : Obligations.ResetMeetsTheInvariant :=
  ⟨fun _ a b h => State.inv_resetWith a b h, State.inv_resetWith _ _ length_configSrc⟩

theorem State.Inv.resetEvent {s : State} (h : s.Inv) : s.resetEvent.Inv := by
  obtain ⟨-, -, ⟨hlen, -, -⟩, -, -⟩ := h
  exact State.inv_resetWith Config.seedS Config.seedD hlen

/-! ### What a step does (R8, R217, R230, R75) -/

theorem step_of_fetch_settled {s t : State} (h : fetch s = .settled t) : step s = .next t := by
  rw [step, h]

theorem step_idle {s : State} (h : s.inputs = []) : step s = .next s :=
  step_of_fetch_settled (by rw [fetch, takeInput_nil h])

theorem step_reset {s : State} {rest : List Input} (h : s.inputs = .reset :: rest) :
    step s = .next (State.resetEvent { s with inputs := rest }) :=
  step_of_fetch_settled (by rw [fetch, takeInput_cons h])

theorem step_of_decode_ok {s : State} {w : Word40} {rest : List Input} {i : Instr}
    (h : s.inputs = .command w :: rest) (hd : decode w = .ok i) : step s = exec i { s with inputs := rest } :=
  step_of_fetch_run (fetch_of_decode_ok h hd)

theorem step_of_decode_error {s : State} {w : Word40} {rest : List Input} {e : DecodeError}
    (h : s.inputs = .command w :: rest) (hd : decode w = .error e) :
    step s = .next (State.illegalCommand { s with inputs := rest }) :=
  step_of_fetch_settled (by rw [fetch_command h, hd])

/-- Settles O52: an idle step, a reset, an illegal word and an operation each keep the invariant. -/
theorem everyStepKeepsTheInvariant : Obligations.EveryStepKeepsTheInvariant := by
  intro s t hinv hstep
  rcases hin : s.inputs with _ | ⟨w | _, rest⟩
  · obtain rfl : s = t := by simpa [step_idle hin] using hstep
    exact hinv
  · have hrest := hinv.with_inputs rest
    cases hd : decode w with
    | ok i => exact exec_inv ((step_of_decode_ok hin hd).symm.trans hstep) hrest
    | error e =>
      obtain rfl : State.illegalCommand { s with inputs := rest } = t := by
        simpa [step_of_decode_error hin hd] using hstep
      exact hrest.answer .errIllegalCmd 0
  · obtain rfl : State.resetEvent { s with inputs := rest } = t := by simpa [step_reset hin] using hstep
    exact (hinv.with_inputs rest).resetEvent

end Sys2Proof.Machine
end

-- ==== What the host can see (`10_state.md`) ====
section
/-! Bytes that no read reaches change no response (R23, R24, R26). -/

namespace Sys2Proof.Machine

/-! ### States that look the same -/

/-- The state with other contents in what can be unreadable. -/
def State.withHidden (s : State) (seg hdr : Memory) (scrc hcrc : Half) : State :=
  { s with seg := seg, hdr := hdr, scrc := scrc, hcrc := hcrc }

/-- The part of `SameToHost` that speaks of the segment: with one held, `SCRC` and the bytes below `SLEN` agree. -/
def State.SameSegment (s t : State) : Prop :=
  s.flags.segv = true → s.scrc = t.scrc ∧ ∀ a, a < s.slen.toNat → s.segByte a = t.segByte a

/-- The part of `SameToHost` that speaks of the header: with one built, `HCRC` and the 16 bytes agree. -/
def State.SameHeader (s t : State) : Prop :=
  s.flags.hdrv = true → s.hcrc = t.hcrc ∧ ∀ a, a < 16 → s.hdrByte a = t.hdrByte a

theorem State.sameToHost_iff (s t : State) :
    s.SameToHost t ↔
      (∃ seg hdr scrc hcrc, t = s.withHidden seg hdr scrc hcrc) ∧ s.SameSegment t ∧ s.SameHeader t := by
  refine and_congr_left fun _ => ⟨fun h => ⟨t.seg, t.hdr, t.scrc, t.hcrc, ?_⟩, ?_⟩
  · have := congrArg (State.withHidden · t.seg t.hdr t.scrc t.hcrc) h
    exact this.symm
  · rintro ⟨seg, hdr, scrc, hcrc, rfl⟩
    rfl

/-- Both outcomes are next states, and those look the same to the host. -/
def Alike (o o' : Host.Outcome State Fault Refusal) : Prop :=
  ∃ s t, o = .next s ∧ o' = .next t ∧ s.SameToHost t

theorem alike_ite {p : Prop} [Decidable p] {a a' b b' : Host.Outcome State Fault Refusal} (ha : Alike a a')
    (hb : Alike b b') : Alike (if p then a else b) (if p then a' else b') := by
  split
  · exact ha
  · exact hb

theorem State.SameToHost.respond {s t : State} (h : s.SameToHost t) (c : Code) (v : Word) :
    Alike (respond c v s) (respond c v t) := by
  obtain ⟨⟨seg, hdr, scrc, hcrc, rfl⟩, hseg, hhdr⟩ := (State.sameToHost_iff ..).1 h
  exact ⟨_, _, rfl, rfl, rfl, hseg, hhdr⟩

theorem State.SameToHost.advance {s t : State} (h : s.SameToHost t) (n : Nat) :
    (s.advance n).SameToHost (t.advance n) := by
  obtain ⟨⟨seg, hdr, scrc, hcrc, rfl⟩, hseg, hhdr⟩ := (State.sameToHost_iff ..).1 h
  exact ⟨rfl, hseg, hhdr⟩

theorem State.SameToHost.terminated {s t : State} (h : s.SameToHost t) (r : Rst) :
    (s.terminated r).SameToHost (t.terminated r) := by
  obtain ⟨⟨seg, hdr, scrc, hcrc, rfl⟩, -, hhdr⟩ := (State.sameToHost_iff ..).1 h
  exact ⟨rfl, fun hsegv => absurd hsegv Bool.false_ne_true, hhdr⟩

theorem State.SameToHost.opened {s t : State} (h : s.SameToHost t) : s.opened.SameToHost t.opened := by
  obtain ⟨⟨seg, hdr, scrc, hcrc, rfl⟩, -, hhdr⟩ := (State.sameToHost_iff ..).1 h
  exact ⟨rfl, fun hsegv => absurd hsegv Bool.false_ne_true, hhdr⟩

/-! ### The reader: every decision is made from the image, the cursor and the status -/

/-- What does not read `SEG`, `HDR`, `SCRC` and `HCRC` is equal in states that look the same. -/
theorem State.SameToHost.eq_of_blind {α : Type} {s t : State} (h : s.SameToHost t) (f : State → α)
    (hf : ∀ s seg hdr scrc hcrc, f (State.withHidden s seg hdr scrc hcrc) = f s) : f s = f t := by
  obtain ⟨⟨seg, hdr, scrc, hcrc, rfl⟩, -, -⟩ := (State.sameToHost_iff ..).1 h
  exact (hf ..).symm

theorem State.SameToHost.rst {s t : State} (h : s.SameToHost t) : s.rst = t.rst :=
  h.eq_of_blind State.rst fun _ _ _ _ _ => rfl

theorem State.SameToHost.avail {s t : State} (h : s.SameToHost t) : s.avail = t.avail :=
  h.eq_of_blind State.avail fun _ _ _ _ _ => rfl

theorem State.SameToHost.srcByte {s t : State} (h : s.SameToHost t) : s.srcByte = t.srcByte :=
  h.eq_of_blind State.srcByte fun _ _ _ _ _ => rfl

theorem State.SameToHost.srcBytes {s t : State} (h : s.SameToHost t) : s.srcBytes = t.srcBytes :=
  h.eq_of_blind State.srcBytes fun _ _ _ _ _ => rfl

theorem State.SameToHost.lengthPrefix {s t : State} (h : s.SameToHost t) : s.lengthPrefix = t.lengthPrefix :=
  h.eq_of_blind State.lengthPrefix fun _ _ _ _ _ => rfl

theorem State.SameToHost.flags {s t : State} (h : s.SameToHost t) : s.flags = t.flags :=
  h.eq_of_blind State.flags fun _ _ _ _ _ => rfl

theorem State.SameToHost.slen {s t : State} (h : s.SameToHost t) : s.slen = t.slen :=
  h.eq_of_blind State.slen fun _ _ _ _ _ => rfl

theorem State.SameToHost.boxaddr {s t : State} (h : s.SameToHost t) : s.boxaddr = t.boxaddr :=
  h.eq_of_blind State.boxaddr fun _ _ _ _ _ => rfl

theorem State.SameToHost.tierval {s t : State} (h : s.SameToHost t) : s.tierval = t.tierval :=
  h.eq_of_blind State.tierval fun _ _ _ _ _ => rfl

theorem State.SameToHost.scrc {s t : State} (h : s.SameToHost t) (hsegv : s.flags.segv = true) : s.scrc = t.scrc := by
  obtain ⟨-, hseg, -⟩ := h
  exact (hseg hsegv).1

theorem State.SameToHost.segByte {s t : State} (h : s.SameToHost t) (hsegv : s.flags.segv = true) {a : Nat}
    (ha : a < s.slen.toNat) : s.segByte a = t.segByte a := by
  obtain ⟨-, hseg, -⟩ := h
  exact (hseg hsegv).2 a ha

theorem State.SameToHost.hcrc {s t : State} (h : s.SameToHost t) (hhdrv : s.flags.hdrv = true) : s.hcrc = t.hcrc := by
  obtain ⟨-, -, hhdr⟩ := h
  exact (hhdr hhdrv).1

theorem State.SameToHost.hdrByte {s t : State} (h : s.SameToHost t) (hhdrv : s.flags.hdrv = true) {a : Nat}
    (ha : a < 16) : s.hdrByte a = t.hdrByte a := by
  obtain ⟨-, -, hhdr⟩ := h
  exact (hhdr hhdrv).2 a ha

theorem rdShortBody_alike {s t : State} (h : s.SameToHost t) : Alike (rdShortBody s) (rdShortBody t) := by
  rw [rdShortBody, rdShortBody, h.avail, h.srcByte]
  exact alike_ite ((h.terminated _).respond ..) ((h.terminated _).respond ..)

theorem rdLoneByte_alike {s t : State} (h : s.SameToHost t) : Alike (rdLoneByte s) (rdLoneByte t) := by
  rw [rdLoneByte, rdLoneByte, h.srcByte]
  exact alike_ite ((h.terminated _).respond ..) ((h.terminated _).respond ..)

/-- A yield fills `SEG` up to `SLEN` from the image: what stood there before is gone or stays unreadable. -/
theorem rdYield_alike {s t : State} {len : Nat} (h : s.SameToHost t) (hs : s.seg.wf segSize = true)
    (ht : t.seg.wf segSize = true) (h18 : 18 ≤ len) (h1024 : len ≤ 1024) (hav : len ≤ s.avail) :
    Alike (rdYield len s) (rdYield len t) := by
  have hav' : len ≤ t.avail := h.avail ▸ hav
  have hread : ∀ a, a < len → (s.yieldedSeg len).read a = (t.yieldedSeg len).read a := fun a ha => by
    rw [State.read_yieldedSeg hs h1024 hav ha, State.read_yieldedSeg ht h1024 hav' ha, h.srcBytes]
  have hscrc : s.yieldedScrc len = t.yieldedScrc len := by
    rw [State.yieldedScrc_eq hs h1024 hav, State.yieldedScrc_eq ht h1024 hav', h.srcBytes]
  have hmatch : s.yieldedMatch len = t.yieldedMatch len := by
    rw [State.yieldedMatch, State.yieldedMatch, hscrc, State.yieldedTrailer, State.yieldedTrailer,
      hread _ (by omega), hread _ (by omega)]
  rw [rdYield, rdYield, hmatch]
  obtain ⟨⟨seg, hdr, scrc, hcrc, rfl⟩, -, hhdr⟩ := (State.sameToHost_iff ..).1 h
  refine State.SameToHost.respond ⟨?_, fun _ => ⟨?_, fun a ha => ?_⟩, ?_⟩ _ _
  · simp only [State.yieldSegment_flags, hmatch]
    rfl
  · rwa [State.yieldSegment_scrc, State.yieldSegment_scrc]
  · rw [State.yieldSegment_slen, BitVec.toNat_ofNat] at ha
    rw [State.segByte, State.segByte, State.yieldSegment_seg, State.yieldSegment_seg]
    exact hread a (by omega)
  · rw [State.yieldSegment_flags, Flags.yielded_hdrv]
    exact hhdr

theorem rdCheckLength_alike {s t : State} (len : Half) (h : s.SameToHost t) (hs : s.seg.wf segSize = true)
    (ht : t.seg.wf segSize = true) : Alike (rdCheckLength len s) (rdCheckLength len t) := by
  unfold rdCheckLength
  split
  · exact (h.terminated _).respond ..
  split
  · exact (h.terminated _).respond ..
  split
  · exact (h.terminated _).respond ..
  rename_i hmax hmin
  rw [rdBody, rdBody, ← h.avail]
  split
  · exact rdShortBody_alike h
  · exact rdYield_alike h hs ht (Nat.le_of_not_lt hmin) (Nat.le_of_not_lt hmax) (by omega)

theorem rdRun_alike {s t : State} (h : s.SameToHost t) (hs : s.seg.wf segSize = true)
    (ht : t.seg.wf segSize = true) : Alike (rdRun s) (rdRun t) := by
  rw [rdRun, rdRun, h.avail, h.lengthPrefix]
  exact alike_ite ((h.terminated _).respond ..)
    (alike_ite (rdLoneByte_alike h) (rdCheckLength_alike _ (h.advance 2) hs ht))

theorem execRdnext_alike {s t : State} (h : s.SameToHost t) (hs : s.seg.wf segSize = true)
    (ht : t.seg.wf segSize = true) : Alike (execRdnext s) (execRdnext t) := by
  rw [execRdnext, execRdnext, h.rst]
  split
  case h_6 => exact rdRun_alike h hs ht
  all_goals exact h.respond ..

theorem execSgldb_alike {s t : State} (off : BitVec 10) (h : s.SameToHost t) :
    Alike (execSgldb off s) (execSgldb off t) := by
  rw [execSgldb, execSgldb, ← h.flags, ← h.slen]
  split
  · exact h.respond ..
  · rename_i hheld
    simp only [not_or, Bool.not_eq_false, not_le] at hheld
    obtain ⟨hsegv, hoff⟩ := hheld
    rw [h.segByte hsegv hoff]
    exact h.respond ..

/-! ### The builder -/

theorem execCpldb_alike {s t : State} (off : BitVec 4) (h : s.SameToHost t) :
    Alike (execCpldb off s) (execCpldb off t) := by
  rw [execCpldb, execCpldb, ← h.flags]
  split
  · rename_i hhdrv
    rw [h.hdrByte hhdrv off.isLt]
    exact h.respond ..
  · exact h.respond ..

theorem State.SameToHost.search {s t : State} (h : s.SameToHost t) (c : Half) :
    (s.search c).SameToHost (t.search c) := by
  obtain ⟨⟨seg, hdr, scrc, hcrc, rfl⟩, hseg, hhdr⟩ := (State.sameToHost_iff ..).1 h
  exact ⟨rfl, hseg, hhdr⟩

/-- A build writes all 16 bytes of `HDR` from the registers, whatever stood there. -/
theorem State.SameToHost.buildHeader {s t : State} (h : s.SameToHost t) (hs : s.hdr.wf hdrSize = true)
    (ht : t.hdr.wf hdrSize = true) : s.buildHeader.SameToHost t.buildHeader := by
  have hhcrc : s.builtHcrc = t.builtHcrc := by
    rw [State.builtHcrc_eq hs, State.builtHcrc_eq ht, h.boxaddr, h.tierval]
  have hread : ∀ a, a < 16 → s.builtHdr.read a = t.builtHdr.read a := fun a ha => by
    rw [State.read_builtHdr hs ha, State.read_builtHdr ht ha, h.boxaddr, h.tierval]
  obtain ⟨⟨seg, hdr, scrc, hcrc, rfl⟩, hseg, -⟩ := (State.sameToHost_iff ..).1 h
  refine ⟨rfl, hseg, fun _ => ⟨?_, fun a ha => ?_⟩⟩
  · rwa [State.buildHeader_hcrc, State.buildHeader_hcrc]
  · rw [State.hdrByte, State.hdrByte, State.buildHeader_hdr, State.buildHeader_hdr]
    exact hread a ha

theorem execCpbuild_alike {s t : State} (h : s.SameToHost t) (hs : s.hdr.wf hdrSize = true)
    (ht : t.hdr.wf hdrSize = true) : Alike (execCpbuild s) (execCpbuild t) := by
  have hbuilt : s.buildPacket.SameToHost t.buildPacket := by
    rw [State.buildPacket, State.buildPacket, State.builtHcrc_eq hs, State.builtHcrc_eq ht, h.boxaddr, h.tierval]
    exact (h.buildHeader hs ht).search _
  rw [execCpbuild, execCpbuild, h.boxaddr, hbuilt.eq_of_blind State.ncnt fun _ _ _ _ _ => rfl]
  exact alike_ite (hbuilt.respond ..) (h.respond ..)

/-! ### Register read -/

theorem State.Inv.slen_le {s : State} (h : s.Inv) (hsegv : s.flags.segv = true) : 18 ≤ s.slen.toNat := by
  obtain ⟨-, -, -, ⟨-, hheld⟩, -⟩ := h
  obtain ⟨-, h18, -⟩ := hheld hsegv
  exact h18

/-- A register that `RDREG` does not refuse reads the same in states that look the same: `SCRC` and the views need
the held segment, whose bytes agree, and `HCRC` the built header. -/
theorem State.SameToHost.readReg {s t : State} {r : Byte} (h : s.SameToHost t) (hinv : s.Inv)
    (hseg : regNeedsSegment r = true → s.flags.segv = true) (hhdr : regNeedsHeader r = true → s.flags.hdrv = true) :
    s.readReg r = t.readReg r := by
  have hheld : regNeedsSegment r = true → ∀ a < s.slen.toNat, s.segByte a = t.segByte a := fun hr _ ha =>
    h.segByte (hseg hr) ha
  have hview : regNeedsSegment r = true → ∀ a < 18, s.segByte a = t.segByte a := fun hr a ha =>
    hheld hr a (ha.trans_le (hinv.slen_le (hseg hr)))
  have hscrc : regNeedsSegment r = true → s.scrc = t.scrc := fun hr => h.scrc (hseg hr)
  have hhcrc : regNeedsHeader r = true → s.hcrc = t.hcrc := fun hr => h.hcrc (hhdr hr)
  have h18 : regNeedsSegment r = true → 18 ≤ s.slen.toNat := fun hr => hinv.slen_le (hseg hr)
  obtain ⟨⟨seg, hdr, scrc, hcrc, rfl⟩, -, -⟩ := (State.sameToHost_iff ..).1 h
  unfold State.readReg
  split
  case h_11 => rw [hscrc rfl]
  case h_12 | h_13 | h_14 | h_15 | h_16 | h_17 | h_18 | h_19 =>
    simp [State.fImage, State.fSegLsb, State.fOwner, State.fTier, State.fRsvd, State.fFlags, State.fSegNum,
      State.fOffset, hview rfl]
  case h_21 =>
    have h18 := h18 rfl
    rw [State.fTrailer, hheld rfl _ (by omega), hheld rfl _ (by omega)]
    rfl
  case h_24 => rw [hhcrc rfl]
  all_goals rfl

theorem exists_readReg_of_needs {r : Byte} (h : regNeedsSegment r = true ∨ regNeedsHeader r = true) (s : State) :
    ∃ v, s.readReg r = some v := by
  have hr : r ∈ [0x0A, 0x10, 0x11, 0x12, 0x13, 0x14, 0x15, 0x16, 0x17, 0x18, 0x19, 0x22] := by
    revert r
    decide
  simp only [List.mem_cons, List.not_mem_nil, or_false] at hr
  rcases hr with rfl | rfl | rfl | rfl | rfl | rfl | rfl | rfl | rfl | rfl | rfl | rfl <;> exact ⟨_, rfl⟩

/-- Data that is not there is refused (R190). -/
theorem execRdreg_of_absent {s : State} {r : Byte}
    (hno : (regNeedsSegment r = true ∧ s.flags.segv = false) ∨ (regNeedsHeader r = true ∧ s.flags.hdrv = false)) :
    execRdreg r s = raise .errNoData s := by
  obtain ⟨v, hv⟩ := exists_readReg_of_needs (hno.imp And.left And.left) s
  unfold execRdreg
  rw [hv]
  rcases hno with hno | hno
  · exact if_pos hno
  · exact (congrArg (ite _ _) (if_pos hno)).trans (ite_self _)

theorem execRdreg_alike {s t : State} (r : Byte) (h : s.SameToHost t) (hinv : s.Inv) :
    Alike (execRdreg r s) (execRdreg r t) := by
  by_cases hno : (regNeedsSegment r = true ∧ s.flags.segv = false) ∨ (regNeedsHeader r = true ∧ s.flags.hdrv = false)
  · rw [execRdreg_of_absent hno, execRdreg_of_absent (h.flags ▸ hno)]
    exact h.respond ..
  · simp only [not_or, not_and, Bool.not_eq_false] at hno
    obtain ⟨hseg, hhdr⟩ := hno
    rw [execRdreg, execRdreg, ← h.readReg hinv hseg hhdr, ← h.flags]
    split
    · exact h.respond ..
    · exact alike_ite (h.respond ..) (alike_ite (h.respond ..) (h.respond ..))

/-! ### Every operation and every step -/

theorem exec_alike {s t : State} (i : Instr) (h : s.SameToHost t) (hs : s.Inv) (ht : t.Inv) :
    Alike (exec i s) (exec i t) := by
  have ⟨⟨hsseg, hshdr⟩, _⟩ := hs
  have ⟨⟨htseg, hthdr⟩, _⟩ := ht
  cases i with
  | rdnext => exact execRdnext_alike h hsseg htseg
  | sgldb off => exact execSgldb_alike off h
  | cpbuild => exact execCpbuild_alike h hshdr hthdr
  | cpldb off => exact execCpldb_alike off h
  | rdreg r => exact execRdreg_alike r h hs
  | rdopen => exact h.opened.respond ..
  | ckinit | ckupd | ckfin | ckld | cktgt | cksolve | ckhit | scrld | scrbit | dscld | dscbit | cpaddr | cptier =>
    obtain ⟨⟨seg, hdr, scrc, hcrc, rfl⟩, hseg, hhdr⟩ := (State.sameToHost_iff ..).1 h
    exact ⟨_, _, rfl, rfl, rfl, hseg, hhdr⟩

theorem State.SameToHost.with_inputs {s t : State} (h : s.SameToHost t) (rest : List Input) :
    State.SameToHost { s with inputs := rest } { t with inputs := rest } := by
  obtain ⟨⟨seg, hdr, scrc, hcrc, rfl⟩, hseg, hhdr⟩ := (State.sameToHost_iff ..).1 h
  exact ⟨rfl, hseg, hhdr⟩

theorem State.SameToHost.resetEvent {s t : State} (h : s.SameToHost t) : s.resetEvent.SameToHost t.resetEvent := by
  obtain ⟨⟨seg, hdr, scrc, hcrc, rfl⟩, -, -⟩ := (State.sameToHost_iff ..).1 h
  exact ⟨rfl, fun _ => ⟨rfl, fun _ _ => rfl⟩, fun _ => ⟨rfl, fun _ _ => rfl⟩⟩

theorem step_alike {s t : State} (h : s.SameToHost t) (hs : s.Inv) (ht : t.Inv) : Alike (step s) (step t) := by
  have hins : t.inputs = s.inputs := (h.eq_of_blind State.inputs fun _ _ _ _ _ => rfl).symm
  rcases hin : s.inputs with _ | ⟨w | _, rest⟩
  · rw [step_idle hin, step_idle (hins.trans hin)]
    exact ⟨s, t, rfl, rfl, h⟩
  · cases hd : decode w with
    | ok i =>
      rw [step_of_decode_ok hin hd, step_of_decode_ok (hins.trans hin) hd]
      exact exec_alike i (h.with_inputs rest) (hs.with_inputs rest) (ht.with_inputs rest)
    | error e =>
      rw [step_of_decode_error hin hd, step_of_decode_error (hins.trans hin) hd]
      exact (h.with_inputs rest).respond ..
  · rw [step_reset hin, step_reset (hins.trans hin)]
    exact ⟨_, _, rfl, rfl, (h.with_inputs rest).resetEvent⟩

/-- Settles O57: every step gives states that look the same, and the responses are part of what is seen. -/
theorem unreadableBytesCannotBeSeen : Obligations.UnreadableBytesCannotBeSeen := by
  intro s t hs ht h
  obtain ⟨s', t', hstep, hstep', h'⟩ := step_alike h hs ht
  exact ⟨s', t', hstep, hstep', h', h'.eq_of_blind State.responses fun _ _ _ _ _ => rfl⟩

end Sys2Proof.Machine
end

-- ==== The held segment, its fields and the format predicates (`20_memory.md`) ====
section
/-! The field views of a held segment (R43, R44, R46) and the predicates of address and tier (R54 to R56). -/

namespace Sys2Proof.Machine

/-! ### Values and their bytes -/

theorem toNat_append_byte {n : Nat} (x : BitVec n) (b : Byte) : (x ++ b).toNat = x.toNat * 256 + b.toNat := by
  rw [BitVec.toNat_append, ← Nat.shiftLeft_add_eq_or_of_lt b.isLt, Nat.shiftLeft_eq]

theorem hiByte_append_loByte (v : Half) : hiByte v ++ loByte v = v := by
  apply BitVec.eq_of_toNat_eq
  simp only [hiByte, loByte, toNat_append_byte, BitVec.extractLsb'_toNat, Nat.shiftRight_eq_div_pow]
  omega

theorem bytesBE_injective {v w : Half} (h : bytesBE v = bytesBE w) : v = w := by
  obtain ⟨hhi, hlo⟩ : hiByte v = hiByte w ∧ loByte v = loByte w := by simpa [bytesBE] using h
  rw [← hiByte_append_loByte v, ← hiByte_append_loByte w, hhi, hlo]

theorem bytesBE_append (hi lo : Byte) : bytesBE (hi ++ lo) = [hi, lo] := by
  rw [bytesBE, hiByte_append, loByte_append]

/-- Three bytes of a 24-bit value, most significant first, make the value again. -/
theorem append_bytes_24 (v : BitVec 24) :
    (v.extractLsb' 16 8 ++ v.extractLsb' 8 8 ++ v.extractLsb' 0 8 : BitVec 24) = v := by
  apply BitVec.eq_of_toNat_eq
  simp only [toNat_append_byte, BitVec.extractLsb'_toNat, Nat.shiftRight_eq_div_pow]
  omega

/-- Four bytes of a word, most significant first, make the word again. -/
theorem append_bytes_32 (v : Word) :
    (v.extractLsb' 24 8 ++ v.extractLsb' 16 8 ++ v.extractLsb' 8 8 ++ v.extractLsb' 0 8 : Word) = v := by
  apply BitVec.eq_of_toNat_eq
  simp only [toNat_append_byte, BitVec.extractLsb'_toNat, Nat.shiftRight_eq_div_pow]
  omega

/-! ### The field views (R44) -/

/-- Settles O35: a view is its bytes one after the other, and each byte put below multiplies the rest by 256. -/
theorem fieldViewsOfTheSegment : Obligations.FieldViewsOfTheSegment := by
  intro s h18
  simp only [State.fImage, State.fSegLsb, State.fOwner, State.fTier, State.fRsvd, State.fFlags, State.fSegNum,
    State.fOffset, State.fTrailer, State.segByte, toNat_append_byte]
  refine ⟨by omega, trivial, trivial, by omega, trivial, trivial, by omega, trivial, ?_, trivial⟩
  rw [State.fDlen]
  bv_omega

/-! ### The bytes of the held segment -/

@[simp] theorem State.length_segment (s : State) : s.segment.length = s.slen.toNat := Memory.length_readBytes ..

theorem State.getD_segment (s : State) {i : Nat} (hi : i < s.slen.toNat) : s.segment.getD i 0 = s.segByte i := by
  rw [State.segment, Memory.getD_readBytes _ _ _ _ hi, Nat.zero_add, State.segByte]

theorem Memory.drop_readBytes (m : Memory) (k : Nat) :
    ∀ a n, (m.readBytes a n).drop k = m.readBytes (a + k) (n - k) := by
  induction k with
  | zero => exact fun _ _ => rfl
  | succ k ih =>
    intro a n
    cases n with
    | zero => rw [Nat.zero_sub]; rfl
    | succ n => rw [Memory.readBytes, List.drop_succ_cons, ih, Nat.add_sub_add_right, Nat.add_assoc, Nat.add_comm 1]

/-- `F_TRAILER` is the last two bytes of the segment (R44, R46). -/
theorem State.bytesBE_fTrailer {s : State} (h2 : 2 ≤ s.slen.toNat) :
    bytesBE s.fTrailer = s.segment.drop (s.slen.toNat - 2) := by
  have hlast : s.slen.toNat - 1 = s.slen.toNat - 2 + 1 := by omega
  rw [State.fTrailer, bytesBE_append, hlast, State.segment, Memory.drop_readBytes, Nat.zero_add, Nat.sub_sub_self h2]
  rfl

theorem SegHeader.length_bytes (h : SegHeader) : h.bytes.length = 16 := rfl

/-- The header bytes of a laid-out segment, as they stand in `SEG` (R43). -/
theorem State.segByte_of_laid_out {s : State} {h : SegHeader} {data : List Byte} (h18 : 18 ≤ s.slen.toNat)
    (hseg : s.segment = segmentBytes h data) {i : Nat} (hi : i < 16) : s.segByte i = h.bytes.getD i 0 := by
  rw [← s.getD_segment (by omega), hseg, segmentBytes, List.append_assoc, List.getD_append _ _ _ _ hi]

/-- Settles O36: the header views read the 16 bytes of `SegHeader.bytes`, the trailer is what follows header and data. -/
theorem segmentFieldsReadBack : Obligations.SegmentFieldsReadBack := by
  intro s h data hdata hslen hseg
  have hlen : s.slen.toNat = 18 + data.length := by
    rw [hslen, BitVec.toNat_ofNat]
    omega
  have hbyte : ∀ i < 16, s.segByte i = h.bytes.getD i 0 := fun i => State.segByte_of_laid_out (by omega) hseg
  have htrailer : bytesBE s.fTrailer = trailerBytes (h.bytes ++ data) := by
    rw [State.bytesBE_fTrailer (by omega), hseg, segmentBytes]
    exact List.drop_left' (by rw [List.length_append, h.length_bytes]; omega)
  refine ⟨?_, ?_, ?_, ?_, ?_, ?_, ?_, ?_, ?_, bytesBE_injective htrailer⟩
  · rw [State.fImage, hbyte 0 (by omega), hbyte 1 (by omega), hbyte 2 (by omega)]
    exact append_bytes_24 h.imageNumber
  · exact hbyte 3 (by omega)
  · exact hbyte 4 (by omega)
  · rw [State.fTier, hbyte 5 (by omega), hbyte 6 (by omega), hbyte 7 (by omega), hbyte 8 (by omega)]
    exact append_bytes_32 h.tierBits
  · rw [State.fRsvd, hbyte 9 (by omega), hbyte 10 (by omega)]
    exact hiByte_append_loByte h.reserved
  · exact hbyte 11 (by omega)
  · rw [State.fSegNum, hbyte 13 (by omega), hbyte 12 (by omega)]
    exact hiByte_append_loByte h.segmentNumber
  · rw [State.fOffset, hbyte 14 (by omega), hbyte 15 (by omega)]
    exact hiByte_append_loByte h.offset
  · rw [State.fDlen]
    bv_omega

/-! ### Box address and tier (R54 to R56) -/

theorem addrIsBroadcast_iff (a : Word) : addrIsBroadcast a = true ↔ a = 0xFFFFFFFF := beq_iff_eq

theorem addrIsUnicast_iff (a : Word) : addrIsUnicast a = true ↔ a.getLsbD 31 = true ∧ a ≠ 0xFFFFFFFF := by
  simp [addrIsUnicast, BitVec.msb_eq_getLsbD_last, Config.addrBroadcast]

/-- The broadcast address has bit 31 set too, so both kinds of valid address do. -/
theorem addrValid_iff (a : Word) : addrValid a = true ↔ a.getLsbD 31 = true := by
  rw [addrValid, Bool.or_eq_true, addrIsUnicast_iff, addrIsBroadcast_iff]
  rcases eq_or_ne a 0xFFFFFFFF with rfl | ha
  · decide
  · rw [and_iff_left ha, or_iff_left ha]

theorem tierMode_of_clear {t : Word} (h : t.getLsbD 31 = false) : tierMode t = .andMode :=
  if_neg (ne_true_of_eq_false (t.msb_eq_getLsbD_last.trans h))

theorem tierMode_of_set {t : Word} (h : t.getLsbD 31 = true) : tierMode t = .xorMode :=
  if_pos (t.msb_eq_getLsbD_last.trans h)

theorem getLsbD_tierMask (t : Word) {i : Nat} (hi : i < 31) : (tierMask t).getLsbD i = t.getLsbD i := by
  rw [tierMask, BitVec.getLsbD_extractLsb', decide_eq_true hi, Bool.true_and, Nat.zero_add]

theorem tierMask_eq_iff (t rx : Word) : tierMask t = tierMask rx ↔ ∀ i, i < 31 → t.getLsbD i = rx.getLsbD i := by
  rw [BitVec.eq_of_getLsbD_eq_iff]
  refine forall₂_congr fun i hi => ?_
  rw [getLsbD_tierMask t hi, getLsbD_tierMask rx hi]

theorem tierMask_and_ne_zero_iff (t rx : Word) :
    tierMask t &&& tierMask rx ≠ 0 ↔ ∃ i, i < 31 ∧ t.getLsbD i = true ∧ rx.getLsbD i = true := by
  rw [Ne, BitVec.eq_of_getLsbD_eq_iff, not_forall]
  refine exists_congr fun i => ?_
  rw [Classical.not_imp]
  refine and_congr_right fun hi => ?_
  rw [BitVec.getLsbD_and, getLsbD_tierMask t hi, getLsbD_tierMask rx hi]
  simp

/-- An AND-mode tier grants the receivers that share a mask bit with it (R55). -/
theorem tierGrants_of_clear (cmp : TierXorCompare) {t : Word} (rx : Word) (h : t.getLsbD 31 = false) :
    tierGrants cmp t rx = true ↔ ∃ i, i < 31 ∧ t.getLsbD i = true ∧ rx.getLsbD i = true := by
  rw [← tierMask_and_ne_zero_iff]
  simp only [tierGrants, tierMode_of_clear h]
  exact bne_iff_ne

/-- `TIER_AND_MAX` has every mask bit set. -/
theorem getLsbD_tierAndMax : ∀ i < 31, Config.tierAndMax.getLsbD i = true := by decide

/-- Settles O58: `TIER_AND` and `TIER_AND_MAX` are two cases of the AND-mode clause. -/
theorem addressAndTierPredicates : Obligations.AddressAndTierPredicates := by
  refine ⟨fun a => ⟨addrValid_iff a, addrIsBroadcast_iff a, addrIsUnicast_iff a⟩,
    fun cmp t rx => tierGrants_of_clear cmp rx, fun cmp rx => ⟨?_, ?_⟩, fun t rx h => ⟨?_, ?_⟩⟩
  · rw [← Bool.not_eq_true, tierGrants_of_clear cmp rx (by decide)]
    simp
  · rw [tierGrants_of_clear cmp rx (by decide)]
    exact exists_congr fun i => and_congr_right fun hi => and_iff_right (getLsbD_tierAndMax i hi)
  · simp only [tierGrants, tierMode_of_set h]
    exact beq_iff_eq
  · rw [← tierMask_eq_iff]
    simp only [tierGrants, tierMode_of_set h]
    exact beq_iff_eq

end Sys2Proof.Machine
end

-- ==== Reading a container back (`20_memory.md`) ====
section
/-! A container is read back body by body to its end (R42, R122): what a running reader does on the bytes before it,
then a run of `RDNEXT` commands by induction on the bodies. -/

namespace Sys2Proof.Machine

/-! ### A run over a list of inputs -/

theorem State.afterInputs_nil {s : State} (h : s.inputs = []) : s.afterInputs [] = .next s := by
  have hs : ({ s with inputs := [] } : State) = s := by rw [← h]
  exact congrArg Host.Outcome.next hs

theorem run_succ_of_step {M : Host.Core} {s t : M.State} (k : Nat) (h : M.step s = .next t) :
    M.run (k + 1) s = M.run k t := by
  rw [Host.Core.run, h]

/-- A run takes its first command and goes on from there. -/
theorem State.afterInputs_command {s t : State} {w : Word40} {i : Instr} {rest : List Input} (hd : decode w = .ok i)
    (h : exec i { s with inputs := rest } = .next t) (hin : t.inputs = rest) :
    s.afterInputs (.command w :: rest) = t.afterInputs rest := by
  subst hin
  exact run_succ_of_step (M := Sys2Proof.core) _ ((step_of_decode_ok rfl hd).trans h)

/-! ### The phases of `RDNEXT` in a running reader (R124 to R129) -/

theorem execRdnext_of_run {s : State} (h : s.rst = .run) : execRdnext s = rdRun s := by
  rw [execRdnext, h]

theorem rdRun_of_avail_zero {s : State} (h : s.avail = 0) : rdRun s = terminate .tEos .eos s := by
  rw [rdRun, if_pos h]

theorem rdRun_of_two_le_avail {s : State} (h : 2 ≤ s.avail) : rdRun s = rdCheckLength s.lengthPrefix (s.advance 2) := by
  rw [rdRun, if_neg (by omega), if_neg (by omega)]

theorem rdCheckLength_sentinel (s : State) : rdCheckLength Config.sentinel s = terminate .tEos .eos s := by
  rw [rdCheckLength, if_pos rfl]

/-- A length in range with its whole body before the cursor is yielded. -/
theorem rdCheckLength_of_whole {s : State} {len : Half} (h18 : 18 ≤ len.toNat) (h1024 : len.toNat ≤ 1024)
    (hav : len.toNat ≤ s.avail) : rdCheckLength len s = rdYield len.toNat s := by
  have hsentinel : len ≠ Config.sentinel := by
    rintro rfl
    exact absurd h1024 (by decide)
  rw [rdCheckLength, if_neg hsentinel, Config.maxSeg, Config.minSeg, if_neg (Nat.not_lt.2 h1024),
    if_neg (Nat.not_lt.2 h18), rdBody, if_neg (Nat.not_lt.2 hav)]

/-! ### The bytes before a running reader -/

/-- A running reader that meets the invariant, with these bytes of the image still to be consumed. -/
structure State.Reading (s : State) (rest : List Byte) : Prop where
  inv : s.Inv
  run : s.rst = .run
  rest : s.src.drop s.cur.toNat = rest

theorem State.Reading.length_src {s : State} {rest : List Byte} (h : s.Reading rest) : s.src.length < 2 ^ 32 := by
  obtain ⟨-, -, ⟨hlen, -, -⟩, -, -⟩ := h.inv
  exact hlen

theorem State.Reading.avail {s : State} {rest : List Byte} (h : s.Reading rest) : s.avail = rest.length := by
  rw [← h.rest, List.length_drop, State.avail, State.srcLen]

theorem State.Reading.srcByte {s : State} {rest : List Byte} (h : s.Reading rest) (i : Nat) :
    s.srcByte i = rest.getD i 0 := by
  rw [← h.rest, State.srcByte, List.getD_eq_getElem?_getD, List.getD_eq_getElem?_getD, List.getElem?_drop]

/-- The two length bytes read as the length they were made from (R42, R126). -/
theorem State.Reading.lengthPrefix {s : State} {len : Nat} {rest : List Byte} (h : s.Reading (prefixBytes len ++ rest))
    (hlen : len < 65536) : s.lengthPrefix = BitVec.ofNat 16 len := by
  have hbytes : s.lengthPrefix = BitVec.ofNat 8 (len / 256) ++ BitVec.ofNat 8 len := by
    rw [State.lengthPrefix, h.srcByte, h.srcByte]
    rfl
  apply BitVec.eq_of_toNat_eq
  simp only [hbytes, toNat_append_byte, BitVec.toNat_ofNat]
  omega

/-- With two length bytes before the cursor, `RDNEXT` judges the length they were made from (R126). -/
theorem State.Reading.execRdnext_of_lengthBytes {s : State} {len : Nat} {rest : List Byte}
    (h : s.Reading (prefixBytes len ++ rest)) (hlen : len < 65536) :
    execRdnext s = rdCheckLength (BitVec.ofNat 16 len) (s.advance 2) ∧ 2 ≤ s.avail ∧
      (s.advance 2).avail = rest.length := by
  have hav : s.avail = 2 + rest.length := by rw [h.avail, List.length_append]; rfl
  refine ⟨?_, by omega, ?_⟩
  · rw [execRdnext_of_run h.run, rdRun_of_two_le_avail (by omega), h.lengthPrefix hlen]
  · rw [State.advance_avail h.length_src (by omega)]
    omega

/-! ### A yield of the next body -/

/-- `body` is held, judged by its own trailer, and the last response says so (R129, R130). -/
structure State.HasYielded (s : State) (body : List Byte) : Prop where
  run : s.rst = .run
  segv : s.flags.segv = true
  segment : s.segment = body
  ckok : s.flags.ckok = true ↔ trailerBytes (body.take (body.length - 2)) = body.drop (body.length - 2)
  response : s.responses.head? = some ⟨if s.flags.ckok then .ok else .cksumMismatch, BitVec.ofNat 32 body.length⟩

/-- Under the invariant `CKOK` says whether the held bytes end in the trailer of the bytes before it (R46). -/
theorem State.Inv.ckok_iff_trailerBytes {s : State} (h : s.Inv) (hsegv : s.flags.segv = true) :
    s.flags.ckok = true ↔
      trailerBytes (s.segment.take (s.segment.length - 2)) = s.segment.drop (s.segment.length - 2) := by
  obtain ⟨-, -, -, ⟨-, hheld⟩, -⟩ := h
  obtain ⟨-, h18, -, -, -, hscrc, hck⟩ := hheld hsegv
  rw [hck, s.length_segment, ← State.bytesBE_fTrailer (by omega), hscrc]
  exact ⟨congrArg bytesBE, fun h => bytesBE_injective h⟩

/-- Under the invariant the held segment is the part of the image just before the cursor. -/
theorem State.Inv.segment_eq {s : State} (h : s.Inv) (hsegv : s.flags.segv = true) :
    s.segment = (s.src.drop (s.cur.toNat - s.slen.toNat)).take s.slen.toNat := by
  obtain ⟨-, -, -, ⟨-, hheld⟩, -⟩ := h
  obtain ⟨-, -, -, -, hsegment, -, -⟩ := hheld hsegv
  exact hsegment

/-- What a yield of the next body leaves: the reader stands at what follows, and `SEG` holds the body. -/
theorem State.Reading.yieldSegment {s : State} {body rest : List Byte}
    (h : s.Reading (prefixBytes body.length ++ (body ++ rest))) (h18 : 18 ≤ body.length) (h1024 : body.length ≤ 1024) :
    ((s.advance 2).yieldSegment body.length).Reading rest ∧
      ((s.advance 2).yieldSegment body.length).segment = body := by
  obtain ⟨-, h2, hav⟩ := h.execRdnext_of_lengthBytes (by omega)
  rw [List.length_append] at hav
  have hinv : ((s.advance 2).yieldSegment body.length).Inv :=
    (Writes.yielded body.length h.run h2 h18 h1024 (by omega)).inv h.inv
  have hcur := State.yielded_cur_toNat (len := body.length) h.length_src h2 (by omega)
  have hslen : ((s.advance 2).yieldSegment body.length).slen.toNat = body.length := Nat.mod_eq_of_lt (by omega)
  have hbody : s.src.drop (s.cur.toNat + 2) = body ++ rest := by rw [← List.drop_drop, h.rest]; rfl
  refine ⟨⟨hinv, h.run, ?_⟩, ?_⟩
  · rw [hcur, State.yieldSegment_src, State.advance_src, ← List.drop_drop, hbody, List.drop_left]
  · rw [hinv.segment_eq (by simp), hslen, hcur, Nat.add_sub_cancel, State.yieldSegment_src, State.advance_src, hbody,
      List.take_left]

/-- One `RDNEXT` with a whole body before the cursor yields it and stands at what follows. -/
theorem State.Reading.rdnext_body {s : State} {body rest : List Byte}
    (h : s.Reading (prefixBytes body.length ++ (body ++ rest))) (h18 : 18 ≤ body.length) (h1024 : body.length ≤ 1024) :
    ∃ t : State, exec .rdnext s = .next t ∧ t.inputs = s.inputs ∧ t.Reading rest ∧ t.HasYielded body := by
  obtain ⟨hexec, -, hav⟩ := h.execRdnext_of_lengthBytes (by omega)
  have hlen : (BitVec.ofNat 16 body.length).toNat = body.length := Nat.mod_eq_of_lt (by omega)
  rw [List.length_append] at hav
  rw [rdCheckLength_of_whole (by omega) (by omega) (by omega), hlen] at hexec
  obtain ⟨hreading, hsegment⟩ := h.yieldSegment h18 h1024
  have hsegv : ((s.advance 2).yieldSegment body.length).flags.segv = true := by simp
  have hck := hreading.inv.ckok_iff_trailerBytes hsegv
  rw [hsegment] at hck
  exact ⟨_, hexec, rfl, ⟨hreading.inv.answer _ _, hreading.run, hreading.rest⟩, hreading.run, hsegv, hsegment, hck,
    by simp [Code.ofMatch]⟩

/-! ### The end of the stream -/

/-- With the physical end or a sentinel before the cursor, `RDNEXT` is the end of the stream (R124, R126). -/
theorem State.Reading.rdnext_end {s : State} {tail : List Byte} (h : s.Reading tail)
    (htail : tail = [] ∨ ∃ rest, tail = 0x1A :: 0x1A :: rest) :
    ∃ t : State, exec .rdnext s = .next t ∧ t.inputs = s.inputs ∧ t.rst = .tEos ∧ t.flags.segv = false ∧
      t.responses.head? = some ⟨.eos, 0⟩ := by
  rcases htail with rfl | ⟨rest, rfl⟩
  · have hend : execRdnext s = terminate .tEos .eos s := by
      rw [execRdnext_of_run h.run, rdRun_of_avail_zero h.avail]
    exact ⟨_, hend, rfl, rfl, rfl, rfl⟩
  · have hsentinel : s.Reading (prefixBytes 0x1A1A ++ rest) := h
    have hend : execRdnext s = terminate .tEos .eos (s.advance 2) :=
      (hsentinel.execRdnext_of_lengthBytes (by decide)).1.trans (rdCheckLength_sentinel _)
    exact ⟨_, hend, rfl, rfl, rfl, rfl⟩

/-! ### Runs of `RDNEXT` over a container -/

theorem State.Reading.with_inputs {s : State} {rest : List Byte} (h : s.Reading rest) (inputs : List Input) :
    State.Reading { s with inputs := inputs } rest :=
  ⟨h.inv.with_inputs inputs, h.run, h.rest⟩

/-- `RDOPEN` after reset stands at the first byte of the image. -/
theorem afterInputs_rdopen {image : List Byte} (a b : ShiftReg) (hlen : image.length < 2 ^ 32) (more : List Input) :
    ∃ s : State, s.Reading image ∧
      (State.resetWith image a b).afterInputs (.command 0x3000000000 :: more) = s.afterInputs more := by
  have hopen : exec .rdopen { State.resetWith image a b with inputs := more } = .next _ := rfl
  have hinv := exec_inv hopen ((State.inv_resetWith a b hlen).with_inputs more)
  exact ⟨_, ⟨hinv, rfl, rfl⟩, State.afterInputs_command rfl hopen rfl⟩

theorem State.Reading.afterInputs_body {s : State} {body rest : List Byte}
    (h : s.Reading (prefixBytes body.length ++ (body ++ rest))) (h18 : 18 ≤ body.length) (h1024 : body.length ≤ 1024)
    (more : List Input) :
    ∃ t : State, t.Reading rest ∧ t.HasYielded body ∧ t.inputs = more ∧
      s.afterInputs (.command 0x3100000000 :: more) = t.afterInputs more := by
  obtain ⟨t, hexec, hin, hreading, hyielded⟩ := (h.with_inputs more).rdnext_body h18 h1024
  exact ⟨t, hreading, hyielded, hin, State.afterInputs_command rfl hexec hin⟩

theorem containerBytes_append (xs ys : List (List Byte)) :
    containerBytes (xs ++ ys) = containerBytes xs ++ containerBytes ys := by
  induction xs with
  | nil => rfl
  | cons x xs ih => rw [List.cons_append, containerBytes, ih, containerBytes, List.append_assoc _ (containerBytes xs)]

/-- A container cut before its `k`-th body. -/
theorem containerBytes_cut {bodies : List (List Byte)} {k : Nat} (hk : k < bodies.length) :
    containerBytes bodies = containerBytes (bodies.take k) ++
      (prefixBytes bodies[k].length ++ (bodies[k] ++ containerBytes (bodies.drop (k + 1)))) := by
  rw [← List.append_assoc (prefixBytes _), ← containerBytes, ← List.drop_eq_getElem_cons, ← containerBytes_append,
    List.take_append_drop]

/-- As many `RDNEXT` as there are bodies bring the reader to what follows them. -/
theorem State.Reading.afterInputs_bodies {rest : List Byte} (more : List Input) (bodies : List (List Byte))
    (hbodies : ∀ body ∈ bodies, 18 ≤ body.length ∧ body.length ≤ 1024) :
    ∀ s : State, s.Reading (containerBytes bodies ++ rest) →
      ∃ t : State, t.Reading rest ∧
        s.afterInputs (List.replicate bodies.length (.command 0x3100000000) ++ more) = t.afterInputs more := by
  induction bodies with
  | nil => exact fun s h => ⟨s, h, rfl⟩
  | cons body bodies ih =>
    intro s h
    obtain ⟨⟨h18, h1024⟩, hbodies⟩ := List.forall_mem_cons.1 hbodies
    rw [containerBytes, List.append_assoc, List.append_assoc] at h
    obtain ⟨t, ht, -, -, hrun⟩ := h.afterInputs_body h18 h1024
      (List.replicate bodies.length (.command 0x3100000000) ++ more)
    obtain ⟨u, hu, hruns⟩ := ih hbodies t ht
    exact ⟨u, hu, hrun.trans hruns⟩

/-- Settles O39: the first `k` `RDNEXT` bring the reader to the `k`-th body, or to the tail, and one more reads it. -/
theorem aContainerIsReadBack : Obligations.AContainerIsReadBack := by
  intro bodies tail a b hbodies htail hlen
  constructor
  · intro k body hk
    obtain ⟨hlt, rfl⟩ := List.getElem?_eq_some_iff.1 hk
    have hmem : ∀ x ∈ bodies.take k, 18 ≤ x.length ∧ x.length ≤ 1024 := fun x hx => hbodies x (List.mem_of_mem_take hx)
    obtain ⟨s, hs, hopen⟩ := afterInputs_rdopen a b hlen (List.replicate (k + 1) (.command 0x3100000000))
    rw [containerBytes_cut hlt, List.append_assoc, List.append_assoc, List.append_assoc] at hs
    obtain ⟨t, ht, hruns⟩ := State.Reading.afterInputs_bodies [.command 0x3100000000] _ hmem s hs
    obtain ⟨h18, h1024⟩ := hbodies _ (List.getElem_mem hlt)
    obtain ⟨u, -, hu, hin, hlast⟩ := ht.afterInputs_body h18 h1024 []
    rw [List.length_take_of_le hlt.le, ← List.replicate_succ'] at hruns
    refine ⟨u, ?_, hu.run, hu.segv, hu.segment, hu.ckok, hu.response⟩
    rw [hopen, hruns, hlast, State.afterInputs_nil hin]
  · obtain ⟨s, hs, hopen⟩ := afterInputs_rdopen a b hlen (List.replicate (bodies.length + 1) (.command 0x3100000000))
    obtain ⟨t, ht, hruns⟩ := hs.afterInputs_bodies [.command 0x3100000000] bodies hbodies
    obtain ⟨u, hexec, hin, hend⟩ := (ht.with_inputs []).rdnext_end htail
    refine ⟨u, ?_, hend⟩
    rw [hopen, List.replicate_succ', hruns, State.afterInputs_command rfl hexec hin, State.afterInputs_nil hin]

end Sys2Proof.Machine
end

-- ==== The opcode map (`30_encoding.md`) ====
section
/-! The opcode map of R72 as one rule: an operation's code, the width of its operand field and the instruction that an
immediate stands for. Decoding and encoding undo each other, and a row of the opcode table is its operation's words. -/

namespace Sys2Proof

/-! ### The two fields of a command word (R70) -/

@[simp] theorem opOf_commandWord (op : Byte) (imm : Word) : opOf (commandWord op imm) = op :=
  BitVec.extractLsb'_append_eq_left

@[simp] theorem immOf_commandWord (op : Byte) (imm : Word) : immOf (commandWord op imm) = imm :=
  BitVec.extractLsb'_append_eq_right

theorem commandWord_opOf_immOf (w : Word40) : commandWord (opOf w) (immOf w) = w :=
  BitVec.extractLsb'_append_extractLsb' (w := 8) (len := 32)

theorem commandWord_inj {op op' : Byte} {imm imm' : Word} :
    commandWord op imm = commandWord op' imm' ↔ op = op' ∧ imm = imm' := by
  refine ⟨fun h => ⟨?_, ?_⟩, fun ⟨hop, himm⟩ => by rw [hop, himm]⟩
  · simpa using congrArg opOf h
  · simpa using congrArg immOf h

theorem commandWord_and (op op' : Byte) (imm imm' : Word) :
    commandWord op imm &&& commandWord op' imm' = commandWord (op &&& op') (imm &&& imm') :=
  BitVec.and_append

/-! ### Operand fields (R71) -/

theorem ushiftRight_eq_zero_iff_toNat_lt (imm : Word) (k : Nat) : imm >>> k = 0 ↔ imm.toNat < 2 ^ k := by
  rw [← BitVec.toNat_inj, BitVec.toNat_ushiftRight, Nat.shiftRight_eq_div_pow]
  simp

/-- An immediate with its reserved bits zero is its own operand field. -/
theorem setWidth_setWidth_of_reserved_zero {imm : Word} {k : Nat} (h : imm >>> k = 0) :
    (imm.setWidth k).setWidth 32 = imm := by
  rw [ushiftRight_eq_zero_iff_toNat_lt] at h
  apply BitVec.eq_of_toNat_eq
  rw [BitVec.toNat_setWidth, BitVec.toNat_setWidth, Nat.mod_eq_of_lt h, Nat.mod_eq_of_lt imm.isLt]

/-- Masking an immediate's reserved bits leaves nothing exactly when they are zero. -/
theorem and_reserved_eq_zero_iff (imm : Word) (k : Nat) : imm &&& BitVec.allOnes 32 <<< k = 0 ↔ imm >>> k = 0 := by
  have hle : imm.toNat / 2 ^ k * 2 ^ k < 2 ^ 32 := (Nat.div_mul_le_self ..).trans_lt imm.isLt
  rw [← BitVec.shiftLeft_ushiftRight, ← BitVec.toNat_inj, ← BitVec.toNat_inj, BitVec.toNat_shiftLeft,
    BitVec.toNat_ushiftRight, Nat.shiftRight_eq_div_pow, Nat.shiftLeft_eq, Nat.mod_eq_of_lt hle]
  simp

theorem operandField_eq_ok {k : Nat} {op : Byte} {imm : Word} {mk : BitVec k → Instr} {i : Instr}
    (h : operandField k op imm mk = .ok i) : mk (imm.setWidth k) = i := by
  unfold operandField at h
  split at h
  · exact Except.ok.inj h
  · exact nomatch h

/-! ### The opcode map as one rule (R72) -/

/-- The width `k` of the operand field of the operation. -/
def Instr.width : Instr → Nat
  | .ckinit | .ckfin | .cksolve | .rdopen | .rdnext | .cpbuild => 0
  | .scrbit _ | .dscbit _ => 1
  | .cpldb _ => 4
  | .ckupd _ | .rdreg _ => 8
  | .sgldb _ => 10
  | .ckld _ | .cktgt _ | .ckhit _ => 16
  | .scrld _ | .dscld _ => 23
  | .cpaddr _ | .cptier _ => 32

/-- The same operation with its operand taken from an immediate. -/
def Instr.withImm (imm : Word) : Instr → Instr
  | .ckinit => .ckinit
  | .ckupd _ => .ckupd (imm.setWidth 8)
  | .ckfin => .ckfin
  | .ckld _ => .ckld (imm.setWidth 16)
  | .cktgt _ => .cktgt (imm.setWidth 16)
  | .cksolve => .cksolve
  | .ckhit _ => .ckhit (imm.setWidth 16)
  | .scrld _ => .scrld (imm.setWidth 23)
  | .scrbit _ => .scrbit (imm.setWidth 1)
  | .dscld _ => .dscld (imm.setWidth 23)
  | .dscbit _ => .dscbit (imm.setWidth 1)
  | .rdopen => .rdopen
  | .rdnext => .rdnext
  | .sgldb _ => .sgldb (imm.setWidth 10)
  | .cpaddr _ => .cpaddr (imm.setWidth 32)
  | .cptier _ => .cptier (imm.setWidth 32)
  | .cpbuild => .cpbuild
  | .cpldb _ => .cpldb (imm.setWidth 4)
  | .rdreg _ => .rdreg (imm.setWidth 8)

theorem Instr.row_withImm (i : Instr) (imm : Word) : (i.withImm imm).row = i.row := by
  cases i <;> rfl

theorem Instr.withImm_imm (i : Instr) : i.withImm i.imm = i := by
  cases i <;> simp [Instr.withImm, Instr.imm]

/-- With the reserved bits zero the immediate is the operand and nothing else (R71). -/
theorem Instr.imm_withImm (i : Instr) {imm : Word} (h : imm >>> i.width = 0) : (i.withImm imm).imm = imm := by
  cases i with
  | cpaddr | cptier => exact BitVec.setWidth_eq imm
  | ckinit | ckfin | cksolve | rdopen | rdnext | cpbuild => exact h.symm.trans (BitVec.ushiftRight_zero imm)
  | _ => exact setWidth_setWidth_of_reserved_zero h

theorem Instr.imm_toNat_lt (i : Instr) : i.imm.toNat < 2 ^ i.width := by
  cases i with
  | cpaddr | cptier => exact BitVec.isLt _
  | ckinit | ckfin | cksolve | rdopen | rdnext | cpbuild => exact Nat.one_pos
  | _ => exact (BitVec.toNat_setWidth_of_le (by decide)).trans_lt (BitVec.isLt _)

theorem Instr.imm_ushiftRight_width (i : Instr) : i.imm >>> i.width = 0 :=
  (ushiftRight_eq_zero_iff_toNat_lt ..).2 i.imm_toNat_lt

/-- Under an operation's code a word decodes to that operation exactly when its reserved bits are zero (R71, R72). -/
theorem decodeFields_op (i : Instr) (imm : Word) :
    decodeFields i.op imm =
      if imm >>> i.width = 0 then .ok (i.withImm imm) else .error (.reservedBits i.op imm) := by
  cases i <;> rfl

/-- The code of a word that decodes is its instruction's (R72). -/
theorem op_of_decodeFields_ok {op : Byte} {imm : Word} {i : Instr} (h : decodeFields op imm = .ok i) : op = i.op := by
  unfold decodeFields at h
  split at h
  case h_20 => exact nomatch h
  all_goals
    obtain rfl := operandField_eq_ok h
    rfl

/-! ### Decoding and encoding undo each other (R70 to R72) -/

theorem decode_commandWord (op : Byte) (imm : Word) : decode (commandWord op imm) = decodeFields op imm := by
  rw [decode, opOf_commandWord, immOf_commandWord]

theorem decode_encode (i : Instr) : decode (encode i) = .ok i := by
  rw [encode, decode_commandWord, decodeFields_op, if_pos i.imm_ushiftRight_width, i.withImm_imm]

theorem encode_of_decode {w : Word40} {i : Instr} (h : decode w = .ok i) : encode i = w := by
  have hop : opOf w = i.op := op_of_decodeFields_ok h
  rw [decode, hop, decodeFields_op] at h
  split at h
  next hzero =>
    have himm : i.imm = immOf w := by rw [← i.imm_withImm hzero, Except.ok.inj h]
    rw [encode, himm, ← hop, commandWord_opOf_immOf]
  next => exact nomatch h

/-! ### The rows of the opcode table -/

/-- A row's pattern is `op` over a zero immediate, its mask `op` and the reserved bits (R72). -/
theorem Instr.row_eq (i : Instr) :
    i.row = ⟨commandWord i.op 0, commandWord (BitVec.allOnes 8) (BitVec.allOnes 32 <<< i.width)⟩ := by
  cases i <;> simp only [Instr.row, Instr.op, Instr.width] <;> decide

/-- A word matches a row when it has the row's code and its reserved bits are zero (R71, R72). -/
theorem matches_row_iff (w : Word40) (i : Instr) :
    w &&& i.row.mask = i.row.pattern ↔ opOf w = i.op ∧ immOf w >>> i.width = 0 := by
  rw [i.row_eq, ← and_reserved_eq_zero_iff, ← commandWord_inj]
  conv_lhs => rw [← commandWord_opOf_immOf w]
  rw [commandWord_and, BitVec.and_allOnes]

theorem exists_decode_of_matches_row {w : Word40} {i : Instr} (h : w &&& i.row.mask = i.row.pattern) :
    ∃ j, decode w = .ok j ∧ j.row = i.row := by
  obtain ⟨hop, hzero⟩ := (matches_row_iff w i).1 h
  exact ⟨_, by rw [decode, hop, decodeFields_op, if_pos hzero], i.row_withImm _⟩

theorem encode_matches_row (i : Instr) : encode i &&& i.row.mask = i.row.pattern := by
  rw [matches_row_iff, encode, opOf_commandWord, immOf_commandWord]
  exact ⟨rfl, i.imm_ushiftRight_width⟩

end Sys2Proof

namespace Sys2Proof.Machine

/-- Settles O49: under the instruction's code its immediate passes the reserved-bit test and gives its operand back. -/
theorem decodeOfEncodeIsTheInstruction : Obligations.DecodeOfEncodeIsTheInstruction := decode_encode

/-- Settles O50: the code of a word that decodes is its instruction's and its immediate is the operand alone; matching a
row is having its code with the reserved bits zero. -/
theorem encodeOfDecodeIsTheWord : Obligations.EncodeOfDecodeIsTheWord := by
  refine fun w i => ⟨fun h => ?_, exists_decode_of_matches_row⟩
  obtain rfl := encode_of_decode h
  exact ⟨rfl, encode_matches_row i⟩

/-- Settles O51: each word is the encoding of its instruction. -/
theorem exampleWordsDecode : Obligations.ExampleWordsDecode :=
  ⟨decode_encode .ckinit, decode_encode (.ckupd 0xA5), decode_encode (.ckld 0x54BC), decode_encode (.scrld 0x7FFFFF),
    decode_encode (.dscbit 1), decode_encode (.sgldb 1023), decode_encode (.cpaddr 0xFFFFFFFF),
    decode_encode (.cpldb 15), decode_encode (.rdreg 0x13)⟩

end Sys2Proof.Machine
end

-- ==== The answers (`30_encoding.md`) ====
section
/-! Every operation answers with exactly one response, an error code with the value 0 (R73), and an illegal word is
answered `ERR_ILLEGAL_CMD` and changes nothing (R75, R204). -/

namespace Sys2Proof.Machine

/-! ### The response word (R73, R201) -/

theorem Code.isError_eq_false_iff (c : Code) : c.isError = false ↔ c ∈ [.ok, .eos, .cksumMismatch] := by
  cases c <;> decide

theorem Response.getLsbD_word_39 (r : Response) : r.word.getLsbD 39 = r.code.isError := by
  rw [Response.word, BitVec.getLsbD_append]
  rfl

/-! ### Every operation gives one response (R73) -/

/-- From `s` the outcome is a next state with one response more, of value 0 when its code is an error (R73). -/
def AnswersFrom (s : State) (o : Host.Outcome State Fault Refusal) : Prop :=
  ∃ t r, o = .next t ∧ t.responses = r :: s.responses ∧ (r.code.isError = true → r.val = 0)

theorem answersFrom_respond {s u : State} {c : Code} (v : Word) (hu : u.responses = s.responses)
    (hc : c.isError = false) : AnswersFrom s (respond c v u) :=
  ⟨_, ⟨c, v⟩, rfl, congrArg _ hu, fun h => absurd (hc.symm.trans h) Bool.false_ne_true⟩

theorem answersFrom_respond_zero {s u : State} (c : Code) (hu : u.responses = s.responses) :
    AnswersFrom s (respond c 0 u) :=
  ⟨_, ⟨c, 0⟩, rfl, congrArg _ hu, fun _ => rfl⟩

theorem answersFrom_ite {s : State} {p : Prop} [Decidable p] {o o' : Host.Outcome State Fault Refusal}
    (h : AnswersFrom s o) (h' : AnswersFrom s o') : AnswersFrom s (if p then o else o') := by
  split
  · exact h
  · exact h'

theorem rdYield_answersFrom (len : Nat) (s : State) : AnswersFrom s (rdYield len s) := by
  refine answersFrom_respond _ (State.yieldSegment_responses ..) ?_
  cases s.yieldedMatch len <;> rfl

theorem rdBody_answersFrom (len : Nat) (s : State) : AnswersFrom s (rdBody len s) :=
  answersFrom_ite (answersFrom_ite (answersFrom_respond_zero _ rfl) (answersFrom_respond_zero _ rfl))
    (rdYield_answersFrom len s)

theorem rdCheckLength_answersFrom (len : Half) (s : State) : AnswersFrom s (rdCheckLength len s) :=
  answersFrom_ite (answersFrom_respond_zero _ rfl) <| answersFrom_ite (answersFrom_respond_zero _ rfl) <|
    answersFrom_ite (answersFrom_respond_zero _ rfl) (rdBody_answersFrom len.toNat s)

theorem rdRun_answersFrom (s : State) : AnswersFrom s (rdRun s) :=
  answersFrom_ite (answersFrom_respond_zero _ rfl) <|
    answersFrom_ite (answersFrom_ite (answersFrom_respond_zero _ rfl) (answersFrom_respond_zero _ rfl))
      (rdCheckLength_answersFrom s.lengthPrefix (s.advance 2))

theorem execRdnext_answersFrom (s : State) : AnswersFrom s (execRdnext s) := by
  unfold execRdnext
  split
  case h_6 => exact rdRun_answersFrom s
  all_goals exact answersFrom_respond_zero _ rfl

theorem execRdreg_answersFrom (r : Byte) (s : State) : AnswersFrom s (execRdreg r s) := by
  unfold execRdreg
  split
  · exact answersFrom_respond_zero _ rfl
  · exact answersFrom_ite (answersFrom_respond_zero _ rfl) <|
      answersFrom_ite (answersFrom_respond_zero _ rfl) (answersFrom_respond _ rfl rfl)

theorem exec_answersFrom (i : Instr) (s : State) : AnswersFrom s (exec i s) := by
  cases i with
  | rdnext => exact execRdnext_answersFrom s
  | rdreg r => exact execRdreg_answersFrom r s
  | sgldb => exact answersFrom_ite (answersFrom_respond_zero _ rfl) (answersFrom_respond _ rfl rfl)
  | cpldb => exact answersFrom_ite (answersFrom_respond _ rfl rfl) (answersFrom_respond_zero _ rfl)
  | cpbuild =>
    exact answersFrom_ite (answersFrom_respond _ (State.buildPacket_responses s) rfl) (answersFrom_respond_zero _ rfl)
  | cksolve => exact answersFrom_respond _ (State.search_responses ..) rfl
  | _ => exact answersFrom_respond _ rfl rfl

/-- Settles O56: an operation's one response, packed as a word, has its code above its value, and bit 39 is the code's
error bit. -/
theorem everyCommandAnswersOnce : Obligations.EveryCommandAnswersOnce := by
  intro i s
  obtain ⟨t, r, hexec, hresp, hval⟩ := exec_answersFrom i s
  refine ⟨t, r, hexec, hresp, opOf_commandWord .., immOf_commandWord .., ?_, ?_⟩
  · rwa [r.getLsbD_word_39]
  · rw [r.getLsbD_word_39, Code.isError_eq_false_iff]

/-! ### Illegal words (R75, R204) -/

theorem State.readReg_of_unassigned (s : State) {r : Byte} (h : regAssigned r = false) : s.readReg r = none := by
  unfold State.readReg
  split
  case h_25 => rfl
  all_goals exact absurd h (by decide)

/-- An ill-formed instruction is `RDREG` of an unassigned number, refused before any other test (R75, R191, R215). -/
theorem exec_of_not_wellFormed (s : State) {i : Instr} (h : i.wellFormed = false) :
    exec i s = raise .errIllegalCmd s := by
  cases i with
  | rdreg r =>
    rw [exec, execRdreg, s.readReg_of_unassigned h]
  | _ => exact nomatch h

/-- The gaps of the register map (R191). -/
theorem regAssigned_eq_false_of_gap {r : Byte}
    (h : (0x0B ≤ r.toNat ∧ r.toNat ≤ 0x0F) ∨ (0x1A ≤ r.toNat ∧ r.toNat ≤ 0x1F) ∨ 0x23 ≤ r.toNat) :
    regAssigned r = false := by
  simp [regAssigned, BitVec.le_def]
  omega

theorem fields_of_decode_ok {op : Byte} {imm : Word} {i : Instr} (h : decode (op ++ imm) = .ok i) :
    op = i.op ∧ imm = i.imm :=
  commandWord_inj.1 (encode_of_decode h).symm

/-- Settles O45: a word that decodes is its instruction's encoding, whose immediate fits the operand field, so of the
illegal words only `RDREG` of an unassigned number decodes, and that is refused by its meaning. -/
theorem illegalWordsChangeNothing : Obligations.IllegalWordsChangeNothing := by
  intro s op imm rest hin
  cases hd : decode (op ++ imm) with
  | error e =>
    have hstep := step_of_decode_error hin hd
    exact ⟨fun _ => hstep, _, hstep, rfl⟩
  | ok i =>
    obtain ⟨rfl, rfl⟩ := fields_of_decode_ok hd
    have hstep := step_of_decode_ok hin hd
    refine ⟨fun hbad => ?_, ?_⟩
    · refine hstep.trans (exec_of_not_wellFormed _ ?_)
      have hfit := i.imm_toNat_lt
      cases i with
      | rdreg r =>
        have himm : (Instr.rdreg r).imm.toNat = r.toNat := BitVec.toNat_setWidth_of_le (by decide)
        exact regAssigned_eq_false_of_gap (by simpa [Instr.op, himm, Nat.not_le.2 r.isLt] using hbad)
      | cpaddr | cptier => exact absurd hbad (by simp [Instr.op])
      | _ => exact absurd hbad (by simpa [Instr.op, Instr.width] using hfit)
    · obtain ⟨t, r, hexec, hresp, -⟩ := exec_answersFrom i { s with inputs := rest }
      exact ⟨t, hstep.trans hexec, congrArg List.length hresp⟩

end Sys2Proof.Machine
end

-- ==== The checksum engine (`40_checksum.md`) ====
section
/-! The table form of `crc_update` is division by the generator (R91 to R94), two updates multiply by `x^16` (R105), and
checksums stream (R95). -/

namespace Sys2Proof.Machine

/-! ### Reduction is linear (R91) -/

/-- By the two top bits: `g` is added for neither, for one, or twice and so not at all. -/
theorem reduceStep_xor (g v w : Half) : reduceStep g (v ^^^ w) = reduceStep g v ^^^ reduceStep g w := by
  rw [reduceStep, reduceStep, reduceStep, BitVec.msb_xor, BitVec.shiftLeft_xor_distrib]
  cases v.msb <;> cases w.msb <;> grind

theorem reduceTimes_xor (g : Half) (n : Nat) :
    ∀ v w, reduceTimes g n (v ^^^ w) = reduceTimes g n v ^^^ reduceTimes g n w := by
  induction n with
  | zero => exact fun _ _ => rfl
  | succ n ih => exact fun v w => by rw [reduceTimes, reduceStep_xor, ih, reduceTimes, reduceTimes]

theorem reduce8_xor (g v w : Half) : reduce8 g (v ^^^ w) = reduce8 g v ^^^ reduce8 g w := reduceTimes_xor g 8 v w

/-- While no set bit leaves the top, reduction only shifts. -/
theorem reduceTimes_eq_shiftLeft (g : Half) (n : Nat) :
    ∀ v : Half, v.toNat * 2 ^ n < 2 ^ 16 → reduceTimes g n v = v <<< n := by
  induction n with
  | zero => exact fun v _ => (BitVec.shiftLeft_zero v).symm
  | succ n ih =>
    intro v h
    rw [pow_succ', ← Nat.mul_assoc] at h
    have hv : v.toNat * 2 < 2 ^ 16 := (Nat.le_mul_of_pos_right _ n.two_pow_pos).trans_lt h
    have hmsb : ¬ v.msb := by
      rw [BitVec.msb_eq_decide, decide_eq_true_iff]
      omega
    have hshift : (v <<< 1).toNat = v.toNat * 2 := by
      rw [BitVec.toNat_shiftLeft, Nat.shiftLeft_eq, Nat.mod_eq_of_lt hv]
    rw [reduceTimes, reduceStep, if_neg hmsb, ih _ (by rwa [hshift]), ← BitVec.shiftLeft_add, Nat.add_comm]

/-- A value with a clear high half is multiplied by `x^8` without division. -/
theorem reduce8_zero_append (g : Half) (b : Byte) : reduce8 g ((0 : Byte) ++ b) = b ++ (0 : Byte) := by
  have hb := b.isLt
  have hzero : (0 : Byte).toNat = 0 := rfl
  have hval : ((0 : Byte) ++ b : Half).toNat = b.toNat := by rw [toNat_append_byte, hzero, Nat.zero_mul, Nat.zero_add]
  rw [reduce8, reduceTimes_eq_shiftLeft g 8 _ (by omega)]
  apply BitVec.eq_of_toNat_eq
  rw [BitVec.toNat_shiftLeft, hval, toNat_append_byte, Nat.shiftLeft_eq]
  omega

/-! ### The parts of a value -/

theorem append_zero_xor_zero_append {n m : Nat} (x : BitVec n) (y : BitVec m) :
    (x ++ (0 : BitVec m)) ^^^ ((0 : BitVec n) ++ y) = x ++ y := by
  rw [BitVec.xor_append]
  simp

theorem hiByte_xor_loByte (v : Half) : ((hiByte v ++ (0 : Byte)) ^^^ ((0 : Byte) ++ loByte v) : Half) = v :=
  (append_zero_xor_zero_append ..).trans (hiByte_append_loByte v)

/-! ### The tables (R91, R92) -/

theorem crcT_xor (g : Half) (b b' : Byte) : crcT g (b ^^^ b') = crcT g b ^^^ crcT g b' := by
  rw [crcT, crcT, crcT, ← reduce8_xor, BitVec.xor_append, BitVec.xor_self]
  rfl

theorem crcRom_zero_append (g : Half) (n : BitVec 4) : crcRom g ((0 : BitVec 1) ++ n) = crcLT g n := by
  have hmsb : ∀ n : BitVec 4, ¬ ((0 : BitVec 1) ++ n : BitVec 5).msb := by decide
  rw [crcRom, if_neg (hmsb n), BitVec.setWidth_append_eq_right]

theorem crcRom_one_append (g : Half) (n : BitVec 4) : crcRom g ((1 : BitVec 1) ++ n) = crcHT g n := by
  have hmsb : ∀ n : BitVec 4, ((1 : BitVec 1) ++ n : BitVec 5).msb := by decide
  rw [crcRom, if_pos (hmsb n), BitVec.setWidth_append_eq_right]

/-- A byte is its two nibbles, each in its place. -/
theorem nibbles_xor (b : Byte) :
    ((b.extractLsb' 4 4 ++ (0 : BitVec 4)) ^^^ ((0 : BitVec 4) ++ b.extractLsb' 0 4) : Byte) = b :=
  (append_zero_xor_zero_append ..).trans (BitVec.extractLsb'_append_extractLsb' (w := 4) (len := 4))

/-- The two lookups of a byte's nibbles give its `T` (R91). -/
theorem crcRom_xor_crcRom (g : Half) (b : Byte) :
    crcRom g ((0 : BitVec 1) ++ b.extractLsb' 0 4) ^^^ crcRom g ((1 : BitVec 1) ++ b.extractLsb' 4 4) = crcT g b := by
  rw [crcRom_zero_append, crcRom_one_append, crcLT, crcHT, BitVec.xor_comm, ← crcT_xor, nibbles_xor]

theorem romLo_eq : ∀ b : Byte, romLo b = (0 : BitVec 1) ++ b.extractLsb' 0 4 := by decide

theorem romHi_eq : ∀ b : Byte, romHi b = (1 : BitVec 1) ++ b.extractLsb' 4 4 := by decide

theorem romWord_eq_crcT (g : Half) (b : Byte) : romWord g b = crcT g b := by
  rw [romWord, romLo_eq, romHi_eq, crcRom_xor_crcRom]

/-! ### The update as a division (R93, R94) -/

theorem crcUpdate_eq_shift_xor_crcT (g c : Half) (b : Byte) :
    crcUpdate g c b = (loByte c ++ (0 : Byte)) ^^^ crcT g (hiByte c ^^^ b) := by
  rw [crcUpdate_eq, romWord_eq_crcT]
  generalize crcT g (hiByte c ^^^ b) = t
  conv_rhs => rw [← hiByte_append_loByte t, BitVec.xor_append]
  simp

/-- `crc_update` multiplies by `x^8`, with the byte added into the high half (R94). -/
theorem crcUpdate_eq_reduce8 (g c : Half) (b : Byte) : crcUpdate g c b = reduce8 g (c ^^^ (b ++ (0 : Byte))) := by
  have hsplit : c ^^^ (b ++ (0 : Byte)) = ((0 : Byte) ++ loByte c) ^^^ ((hiByte c ^^^ b) ++ (0 : Byte)) := by
    conv_lhs => rw [← hiByte_append_loByte c, BitVec.xor_append]
    rw [BitVec.xor_append]
    simp
  rw [crcUpdate_eq_shift_xor_crcT, hsplit, reduce8_xor, reduce8_zero_append, crcT]

/-- Two updates by the bytes of `n` multiply `c XOR n` by `x^16` (R105). -/
theorem crcUpdate_hiByte_loByte (g c n : Half) :
    crcUpdate g (crcUpdate g c (hiByte n)) (loByte n) = mulx16 g (c ^^^ n) := by
  rw [crcUpdate_eq_reduce8, crcUpdate_eq_reduce8, ← reduce8_zero_append g (loByte n), ← reduce8_xor,
    BitVec.xor_assoc, hiByte_xor_loByte, mulx16]

theorem crcBytes_append (g : Half) (B : List Byte) :
    ∀ (A : List Byte) (c : Half), crcBytes g c (A ++ B) = crcBytes g (crcBytes g c A) B
  | [], _ => rfl
  | b :: A, c => crcBytes_append g B A (crcUpdate g c b)

theorem crcBytes_bytesBE (g c n : Half) : crcBytes g c (bytesBE n) = mulx16 g (c ^^^ n) :=
  crcUpdate_hiByte_loByte g c n

/-- Settles O9: a byte is the exclusive or of its two nibbles in place, and `T` is linear. -/
theorem twoNibbleTablesMakeOneByteTable : Obligations.TwoNibbleTablesMakeOneByteTable := fun g b b' =>
  ⟨crcRom_xor_crcRom g b, crcT_xor g b b'⟩

/-- Settles O11: both forms multiply by `x^8` what the byte was added into. -/
theorem crcUpdateIsBitSerialDivision : Obligations.CrcUpdateIsBitSerialDivision := crcUpdate_eq_reduce8

/-- Settles O8: the 32 lookups are computed from the rule. -/
theorem tablesOfTheDecidedPolynomial : Obligations.TablesOfTheDecidedPolynomial := by
  unfold Obligations.TablesOfTheDecidedPolynomial
  decide

/-- Settles O10: the lookups and halves that R93 spells are those of `crcUpdate`. -/
theorem crcUpdateFollowsTheLookups : Obligations.CrcUpdateFollowsTheLookups := fun _ _ _ => rfl

/-- Settles O12: the recursion of `crcBytes`, and its law for `++`. -/
theorem crcBytesStreams : Obligations.CrcBytesStreams :=
  ⟨rfl, fun _ _ => rfl, fun _ _ _ _ => rfl, fun g c A B => (crcBytes_append g B A c).symm⟩

end Sys2Proof.Machine
end

-- ==== The search (`40_checksum.md`) ====
section
/-! For a generator with a constant term multiplication by `x^16` is a bijection, so a search has one hit (R105); what
a recorded search tells (R102, R103). -/

namespace Sys2Proof.Machine

/-! ### Multiplication by `x^16` is a bijection (R105) -/

/-- After a step that adds a `g` with a constant term bit 0 is set; any other step only shifts a clear bit out. -/
theorem reduceStep_eq_zero {g v : Half} (hg : g.getLsbD 0 = true) (h : reduceStep g v = 0) : v = 0 := by
  rw [reduceStep] at h
  split at h
  · have hbit : ((v <<< 1) ^^^ g).getLsbD 0 = true := by
      rw [BitVec.getLsbD_xor, BitVec.getLsbD_shiftLeft, hg]
      rfl
    rw [h] at hbit
    exact absurd hbit (by decide)
  next hmsb =>
    rw [BitVec.msb_eq_decide, decide_eq_true_iff] at hmsb
    bv_omega

theorem reduceStep_injective {g : Half} (hg : g.getLsbD 0 = true) : Function.Injective (reduceStep g) := by
  intro v w h
  rw [← BitVec.xor_eq_zero_iff] at h ⊢
  exact reduceStep_eq_zero hg ((reduceStep_xor g v w).trans h)

theorem reduceTimes_injective {g : Half} (hg : g.getLsbD 0 = true) (n : Nat) :
    Function.Injective (reduceTimes g n) := by
  induction n with
  | zero => exact Function.injective_id
  | succ n ih => exact ih.comp (reduceStep_injective hg)

theorem mulx16_injective {g : Half} (hg : g.getLsbD 0 = true) : Function.Injective (mulx16 g) :=
  (reduceTimes_injective hg 8).comp (reduceTimes_injective hg 8)

theorem mulx16_surjective {g : Half} (hg : g.getLsbD 0 = true) : Function.Surjective (mulx16 g) :=
  Finite.surjective_of_injective (mulx16_injective hg)

/-! ### The hits of a search (R102) -/

theorem toNat_mem_solve_iff (g c target n : Half) : n.toNat ∈ solve g c target ↔ mulx16 g (c ^^^ n) = target := by
  rw [mem_solve, and_iff_right n.isLt, isHit, BitVec.ofNat_toNat, BitVec.setWidth_eq, beq_iff_eq, crcBytes_bytesBE]

theorem solve_nodup (g c target : Half) : (solve g c target).Nodup := (solve_rising g c target).imp Nat.ne_of_lt

/-- For a generator with a constant term the one hit is `c XOR k`, for the `k` that `x^16` takes to the target. -/
theorem solve_eq_singleton {g c target k : Half} (hg : g.getLsbD 0 = true) (hk : mulx16 g k = target) :
    solve g c target = [(c ^^^ k).toNat] := by
  refine List.perm_singleton.1 ((List.perm_ext_iff_of_nodup (solve_nodup g c target) (List.nodup_singleton _)).2 ?_)
  intro m
  rw [List.mem_singleton]
  constructor
  · intro hm
    obtain ⟨n, rfl⟩ : ∃ n : Half, m = n.toNat := ⟨⟨m, ((mem_solve ..).1 hm).1⟩, rfl⟩
    rw [toNat_mem_solve_iff, ← hk] at hm
    rw [← mulx16_injective hg hm, ← BitVec.xor_assoc, BitVec.xor_self, BitVec.zero_xor]
  · rintro rfl
    rw [toNat_mem_solve_iff, ← BitVec.xor_assoc, BitVec.xor_self, BitVec.zero_xor, hk]

/-- Settles O13: `x^16` reaches every target from exactly one value. -/
theorem everyTargetHasExactlyOneNonce : Obligations.EveryTargetHasExactlyOneNonce := by
  refine ⟨crcUpdate_hiByte_loByte, fun g s target hg => ?_⟩
  obtain ⟨k, hk⟩ := mulx16_surjective hg target
  exact ⟨k, hk, solve_eq_singleton hg hk⟩

theorem poly_getLsbD_zero : Config.poly.getLsbD 0 = true := by decide

theorem mulx16_poly_allOnes : mulx16 Config.poly 0xFFFF = 0x1D0F := by decide +kernel

theorem crcFinish_crcFinish (c : Half) : crcFinish (crcFinish c) = c := by
  rw [crcFinish, crcFinish, BitVec.xor_assoc, BitVec.xor_self, BitVec.xor_zero]

/-- Settles O14: `x^16` takes `0xFFFF`, `0`, `0x84CF` and `0xC8E7` to the four targets. -/
theorem theNonceIsTheFinishedChecksum : Obligations.TheNonceIsTheFinishedChecksum := by
  intro s
  have hsolve {k target : Half} (hk : mulx16 Config.poly k = target) :
      solve Config.poly s target = [(s ^^^ k).toNat] := solve_eq_singleton poly_getLsbD_zero hk
  refine ⟨hsolve mulx16_poly_allOnes, ?_, hsolve (by decide +kernel), hsolve (by decide +kernel)⟩
  conv_rhs => rw [← BitVec.xor_zero (x := s)]
  exact hsolve (by decide +kernel)

/-- Settles O15: the running value of all bytes is `x^16` times the checksum with the trailer added, and only `0xFFFF`
is taken to `0x1D0F`. -/
theorem theTwoTrailerTestsAgree : Obligations.TheTwoTrailerTestsAgree := by
  intro covered trailer
  set c := crcBytes Config.poly 0xFFFF covered
  have hall : crcBytes Config.poly 0xFFFF (covered ++ bytesBE trailer) = mulx16 Config.poly (c ^^^ trailer) := by
    rw [crcBytes_append, crcBytes_bytesBE]
  change _ ↔ crcBytes Config.poly 0xFFFF (covered ++ bytesBE trailer) = 0x1D0F
  rw [hall, ← mulx16_poly_allOnes, (mulx16_injective poly_getLsbD_zero).eq_iff, ← BitVec.xor_right_inj c,
    crcFinish, ← BitVec.xor_assoc, BitVec.xor_self, BitVec.zero_xor, eq_comm]
  rfl

/-! ### What a recorded search tells (R103, `10_state.md` rule R14) -/

theorem State.hitBit_eq_true_iff (s : State) (n : Nat) : s.hitBit n = true ↔ n ∈ s.hitmap := List.contains_iff_mem

theorem State.search_hitBit_iff (s : State) (c n : Half) :
    (s.search c).hitBit n.toNat = true ↔
      crcUpdate Config.poly (crcUpdate Config.poly c (hiByte n)) (loByte n) = s.target := by
  rw [State.hitBit_eq_true_iff, State.search_hitmap, State.hitsFrom, toNat_mem_solve_iff, crcUpdate_hiByte_loByte]

/-- `NCNT` counts the set bits of `HITMAP`. -/
theorem State.SearchWf.ncnt_eq_card {s : State} (h : s.SearchWf) :
    s.ncnt.toNat = (Finset.univ.filter fun n : Half => s.hitBit n.toNat = true).card := by
  obtain ⟨hrising, hlt, hncnt, -⟩ := h
  have himage :
      (Finset.univ.filter fun n : Half => s.hitBit n.toNat = true).image BitVec.toNat = s.hitmap.toFinset := by
    ext m
    simp only [Finset.mem_image, Finset.mem_filter, Finset.mem_univ, true_and, List.mem_toFinset,
      State.hitBit_eq_true_iff]
    exact ⟨fun ⟨n, hn, hm⟩ => hm ▸ hn, fun hm => ⟨⟨m, hlt m hm⟩, hm, rfl⟩⟩
  rw [hncnt, ← List.toFinset_card_of_nodup (hrising.imp Nat.ne_of_lt), ← himage,
    Finset.card_image_of_injective _ fun _ _ => BitVec.eq_of_toNat_eq]

/-- `NONCE` is a hit, and the lowest, when there is one. -/
theorem State.SearchWf.nonce_lowest {s : State} (h : s.SearchWf) {n : Nat} (hn : s.hitBit n = true) :
    s.hitBit s.nonce.toNat = true ∧ s.nonce.toNat ≤ n := by
  obtain ⟨hrising, -, -, hnonce⟩ := h
  rw [State.hitBit_eq_true_iff] at hn ⊢
  cases hmap : s.hitmap with
  | nil => simp [hmap] at hn
  | cons m l =>
    rw [hmap] at hrising hn
    rw [hnonce, hmap, List.headD_cons]
    refine ⟨List.mem_cons_self, ?_⟩
    rcases List.mem_cons.1 hn with rfl | hn
    · exact Nat.le_refl _
    · exact (List.rel_of_pairwise_cons hrising hn).le

theorem State.SearchWf.nonce_eq_zero {s : State} (h : s.SearchWf) (hno : ∀ n : Half, s.hitBit n.toNat = false) :
    s.nonce = 0 := by
  obtain ⟨-, hlt, -, hnonce⟩ := h
  have hnil : s.hitmap = [] := List.eq_nil_iff_forall_not_mem.2 fun m hm =>
    Bool.false_ne_true ((hno ⟨m, hlt m hm⟩).symm.trans ((s.hitBit_eq_true_iff m).2 hm))
  rw [hnil] at hnonce
  exact BitVec.eq_of_toNat_eq hnonce

end Sys2Proof.Machine
end

-- ==== The checksum operations (`40_checksum.md`) ====
section
/-! What the words of an operation do (R71, R75), and the seven operations of the checksum unit (R97 to R104). -/

namespace Sys2Proof.Machine

/-! ### The words of an operation -/

/-- The words with an operation's code run it on the operand their immediate gives, when its reserved bits are zero. -/
theorem wordRuns_op (i : Instr) {mk : Word → Instr} (hmk : ∀ imm, i.withImm imm = mk imm) :
    WordRuns i.op i.width mk := by
  intro s imm rest hin
  have hd : decode (commandWord i.op imm) = _ := (decode_commandWord ..).trans (decodeFields_op i imm)
  rw [← hmk]
  split at hd
  next hzero => rw [if_pos hzero, step_of_decode_ok hin hd]
  next hzero =>
    rw [if_neg hzero, step_of_decode_error hin hd]
    rfl

/-! ### The operations -/

/-- Settles O1: one write of `CRC`, and the words of `CKINIT`. -/
theorem ckinitSetsTheInitialValue : Obligations.CkinitSetsTheInitialValue :=
  ⟨fun _ => rfl, wordRuns_op .ckinit fun _ => rfl⟩

/-- Settles O2: one write of `CRC`, and the words of `CKUPD`. -/
theorem ckupdRunsOneByte : Obligations.CkupdRunsOneByte :=
  ⟨fun _ _ => rfl, wordRuns_op (.ckupd 0) fun _ => rfl⟩

/-- Settles O3: the complement undoes itself. -/
theorem ckfinWritesTheFinishedValue : Obligations.CkfinWritesTheFinishedValue := by
  refine ⟨fun _ => rfl, fun s t u hst htu => ?_, wordRuns_op .ckfin fun _ => rfl⟩
  obtain rfl := (setCrc_eq_next ..).1 hst
  obtain rfl := (setCrc_eq_next ..).1 htu
  exact crcFinish_crcFinish s.crc

/-- Settles O4: one write of `CRC`, and the words of `CKLD`. -/
theorem ckldLoadsTheChecksum : Obligations.CkldLoadsTheChecksum :=
  ⟨fun _ _ => rfl, wordRuns_op (.ckld 0) fun _ => rfl⟩

/-- Settles O5: one write of `TARGET`, and the words of `CKTGT`. -/
theorem cktgtSetsOnlyTheTarget : Obligations.CktgtSetsOnlyTheTarget :=
  ⟨fun _ _ => rfl, wordRuns_op (.cktgt 0) fun _ => rfl⟩

/-- Settles O6: the search `CKSOLVE` records is well formed, which is what makes `NCNT` and `NONCE` tell of its hits. -/
theorem cksolveRecordsTheSearch : Obligations.CksolveRecordsTheSearch := by
  refine ⟨fun s => ?_, wordRuns_op .cksolve fun _ => rfl⟩
  have hwf := State.SearchWf.search s s.crc
  exact ⟨_, rfl, rfl, s.search_hitBit_iff s.crc, hwf.ncnt_eq_card, fun _ => hwf.nonce_lowest, hwf.nonce_eq_zero⟩

/-- Settles O7: the answer is the bit itself, and a reset `HITMAP` has none set. -/
theorem ckhitReadsOneSearchBit : Obligations.CkhitReadsOneSearchBit := by
  refine ⟨fun s n => ?_, fun _ _ _ _ => rfl, wordRuns_op (.ckhit 0) fun _ => rfl⟩
  simp only [exec, execCkhit, State.hitBit_eq_true_iff]
  rfl

end Sys2Proof.Machine
end

-- ==== One changed byte (`41_reader.md`) ====
section
/-! The ground of R133 (4): for a generator with a constant term an update loses nothing, neither of the running value
nor of the byte. -/

namespace Sys2Proof.Machine

theorem reduce8_injective {g : Half} (hg : g.getLsbD 0 = true) : Function.Injective (reduce8 g) :=
  reduceTimes_injective hg 8

/-- From two running values a byte makes two different ones. -/
theorem crcUpdate_left_injective {g : Half} (hg : g.getLsbD 0 = true) (b : Byte) :
    Function.Injective fun c => crcUpdate g c b := by
  intro c c' h
  simp only [crcUpdate_eq_reduce8] at h
  exact (BitVec.xor_left_inj _).1 (reduce8_injective hg h)

/-- From one running value two bytes make two different ones. -/
theorem crcUpdate_right_injective {g : Half} (hg : g.getLsbD 0 = true) (c : Half) :
    Function.Injective (crcUpdate g c) := by
  intro b b' h
  rw [crcUpdate_eq_reduce8, crcUpdate_eq_reduce8] at h
  have hbytes : b ++ (0 : Byte) = b' ++ (0 : Byte) := (BitVec.xor_right_inj c).1 (reduce8_injective hg h)
  rw [← hiByte_append b 0, hbytes, hiByte_append]

theorem crcBytes_left_injective {g : Half} (hg : g.getLsbD 0 = true) :
    ∀ bytes : List Byte, Function.Injective fun c => crcBytes g c bytes
  | [] => Function.injective_id
  | b :: rest => (crcBytes_left_injective hg rest).comp (crcUpdate_left_injective hg b)

/-- Settles O16: the changed byte makes two running values, which the bytes after it keep apart. -/
theorem oneChangedByteChangesTheChecksum : Obligations.OneChangedByteChangesTheChecksum := by
  intro c before after b b' hne heq
  rw [crcBytes_append, crcBytes_append] at heq
  exact hne (crcUpdate_right_injective poly_getLsbD_zero _ (crcBytes_left_injective poly_getLsbD_zero after heq))

end Sys2Proof.Machine
end

-- ==== The reader operations (`41_reader.md`) ====
section
/-! `RDOPEN` and `SGLDB`, each phase of `RDNEXT` in the terms of the image at the cursor (R121 to R132), and how the
status moves (R134). -/

namespace Sys2Proof.Machine

/-! ### Opening, and reading the held segment -/

/-- Settles O28: what `RDOPEN` writes, and its words. -/
theorem rdopenStartsANewReader : Obligations.RdopenStartsANewReader :=
  ⟨fun _ => rfl, wordRuns_op .rdopen fun _ => rfl⟩

/-- Settles O34: the two answers of `SGLDB`, and its words. -/
theorem sgldbReadsTheHeldSegment : Obligations.SgldbReadsTheHeldSegment :=
  ⟨fun _ _ => rfl, wordRuns_op (.sgldb 0) fun _ => rfl⟩

/-! ### A reader that is not running (R123) -/

theorem execRdnext_of_closed {s : State} (h : s.rst = .closed) : execRdnext s = raise .errNotOpen s := by
  rw [execRdnext, h]

theorem execRdnext_of_terminal {s : State} {c : Code} (h : TerminalPair s.rst c) : execRdnext s = respond c 0 s := by
  rcases h with ⟨h, rfl⟩ | ⟨h, rfl⟩ | ⟨h, rfl⟩ | ⟨h, rfl⟩ <;> rw [execRdnext, h]

/-- Settles O29: a closed reader refuses, and each terminal status gives the code it is paired with. -/
theorem rdnextIsRefusedOrSticky : Obligations.RdnextIsRefusedOrSticky := fun _ =>
  ⟨execRdnext_of_closed,
    fun h => execRdnext_of_terminal (.inl ⟨h, rfl⟩),
    fun h => execRdnext_of_terminal (.inr (.inl ⟨h, rfl⟩)),
    fun h => execRdnext_of_terminal (.inr (.inr (.inl ⟨h, rfl⟩))),
    fun h => execRdnext_of_terminal (.inr (.inr (.inr ⟨h, rfl⟩)))⟩

/-! ### The end of the image (R124, R125) -/

/-- The bytes that are left, from where the cursor stands. -/
theorem State.avail_eq_of_cur_add {s : State} {n : Nat} (h : s.cur.toNat + n = s.src.length) : s.avail = n := by
  rw [State.avail, State.srcLen, ← h, Nat.add_sub_cancel_left]

theorem rdRun_of_avail_one {s : State} (h : s.avail = 1) : rdRun s = rdLoneByte s := by
  rw [rdRun, h, if_neg Nat.one_ne_zero, if_pos rfl]

/-- Settles O30: with no byte left the reader ends, with one left that byte decides. -/
theorem rdnextAtTheEndOfTheImage : Obligations.RdnextAtTheEndOfTheImage := by
  intro s hrun
  have hlone (hav : s.cur.toNat + 1 = s.src.length) : exec .rdnext s = rdLoneByte s :=
    (execRdnext_of_run hrun).trans (rdRun_of_avail_one (State.avail_eq_of_cur_add hav))
  refine ⟨fun hend => ?_, fun hav heof => ?_, fun hav heof => ?_⟩
  · exact (execRdnext_of_run hrun).trans (rdRun_of_avail_zero (State.avail_eq_of_cur_add hend))
  · exact (hlone hav).trans (if_pos heof)
  · exact (hlone hav).trans (if_neg heof)

/-! ### The two length bytes (R126, R127) -/

theorem State.lengthPrefix_toNat (s : State) : s.lengthPrefix.toNat = s.prefixAtCursor := by
  rw [State.lengthPrefix, toNat_append_byte, State.prefixAtCursor, Nat.add_comm, Nat.mul_comm]
  rfl

/-- With two bytes left a running reader consumes them and judges the length they give. -/
theorem execRdnext_of_two_bytes_left {s : State} (hrun : s.rst = .run) (hpre : s.cur.toNat + 2 ≤ s.src.length) :
    execRdnext s = rdCheckLength s.lengthPrefix (s.advance 2) :=
  (execRdnext_of_run hrun).trans (rdRun_of_two_le_avail (Nat.le_sub_of_add_le' hpre))

theorem rdCheckLength_of_too_large {s : State} {len : Half} (hsentinel : len ≠ Config.sentinel)
    (h : 1024 < len.toNat) : rdCheckLength len s = terminate .tTooLarge .errTooLarge s := by
  rw [rdCheckLength, if_neg hsentinel, Config.maxSeg, if_pos h]

theorem ne_sentinel_of_le {len : Half} (h1024 : len.toNat ≤ 1024) : len ≠ Config.sentinel := by
  rintro rfl
  exact absurd h1024 (by decide)

theorem rdCheckLength_of_too_short {s : State} {len : Half} (h : len.toNat < 18) :
    rdCheckLength len s = terminate .tTooShort .errTooShort s := by
  rw [rdCheckLength, if_neg (ne_sentinel_of_le (by omega)), Config.maxSeg, Config.minSeg, if_neg (by omega), if_pos h]

/-- Settles O31: the first range check that fails ends the reader just after the two length bytes. -/
theorem rdnextChecksTheLengthPrefix : Obligations.RdnextChecksTheLengthPrefix := by
  refine ⟨fun s hrun _ hpre => ?_, wordRuns_op .rdnext fun _ => rfl⟩
  have hexec : exec .rdnext s = _ := execRdnext_of_two_bytes_left hrun hpre
  have hsentinel : s.lengthPrefix = Config.sentinel ↔ s.prefixAtCursor = 0x1A1A := by
    rw [← s.lengthPrefix_toNat]
    exact BitVec.toNat_inj.symm
  refine ⟨fun h => ?_, fun hne h => ?_, fun h => ?_⟩
  · rw [hexec, hsentinel.2 h, rdCheckLength_sentinel]
    rfl
  · exact hexec.trans (rdCheckLength_of_too_large (mt hsentinel.1 hne) (s.lengthPrefix_toNat ▸ h))
  · exact hexec.trans (rdCheckLength_of_too_short (s.lengthPrefix_toNat ▸ h))

/-! ### A short body (R128) -/

/-- A length in range with fewer bytes before the cursor. -/
theorem rdCheckLength_of_short {s : State} {len : Half} (h18 : 18 ≤ len.toNat) (h1024 : len.toNat ≤ 1024)
    (hav : s.avail < len.toNat) : rdCheckLength len s = rdShortBody s := by
  rw [rdCheckLength, if_neg (ne_sentinel_of_le h1024), Config.maxSeg, Config.minSeg, if_neg (Nat.not_lt.2 h1024),
    if_neg (Nat.not_lt.2 h18), rdBody, if_pos hav]

/-- After the two length bytes the cursor stands 2 further, still inside the image. -/
theorem State.advance_two_cur_toNat {s : State} (hlen : s.src.length < 2 ^ 32)
    (hpre : s.cur.toNat + 2 ≤ s.src.length) : (s.advance 2).cur.toNat = s.cur.toNat + 2 :=
  State.advance_cur_toNat hlen (Nat.le_sub_of_add_le' hpre)

theorem State.advance_two_avail {s : State} (hlen : s.src.length < 2 ^ 32) (hpre : s.cur.toNat + 2 ≤ s.src.length) :
    (s.advance 2).avail = s.src.length - (s.cur.toNat + 2) := by
  rw [State.avail, State.advance_two_cur_toNat hlen hpre]
  rfl

/-- Settles O32: the body phase finds fewer bytes than declared, and looks at the first of them. -/
theorem rdnextJudgesAShortBody : Obligations.RdnextJudgesAShortBody := by
  intro s hrun hlen hpre h18 h1024 hshort
  have hav := State.advance_two_avail hlen hpre
  have hfirst : (s.advance 2).srcByte 0 = s.imageByte (s.cur.toNat + 2) := by
    rw [State.srcByte, State.advance_two_cur_toNat hlen hpre]
    rfl
  rw [← s.lengthPrefix_toNat] at h18 h1024 hshort
  change execRdnext s = _
  rw [execRdnext_of_two_bytes_left hrun hpre, rdCheckLength_of_short h18 h1024 (by omega), rdShortBody, hav, hfirst]
  by_cases heof : s.cur.toNat + 2 < s.src.length ∧ s.imageByte (s.cur.toNat + 2) = 0x1A
  · rw [if_pos ⟨by omega, heof.2⟩, if_pos heof]
    rfl
  · rw [if_neg fun h => heof ⟨by omega, h.2⟩, if_neg heof]
    rfl

/-! ### A whole body (R129, R130) -/

theorem State.getD_srcBytes (s : State) {n i : Nat} (hi : i < n) :
    (s.srcBytes n).getD i 0 = s.imageByte (s.cur.toNat + i) := by
  rw [State.srcBytes, State.imageByte, List.getD_eq_getElem?_getD, List.getD_eq_getElem?_getD,
    List.getElem?_take_of_lt hi, List.getElem?_drop]

/-- A yield puts the bytes at the cursor into `SEG`. -/
theorem State.read_yieldedSeg_of_lt {s : State} {len i : Nat} (hwf : s.seg.wf segSize = true) (h1024 : len ≤ 1024)
    (hav : len ≤ s.avail) (hi : i < len) : (s.yieldedSeg len).read i = s.imageByte (s.cur.toNat + i) := by
  rw [State.read_yieldedSeg hwf h1024 hav hi, s.getD_srcBytes hi]

/-- A yield leaves the bytes of `SEG` at the length and above. -/
theorem State.read_yieldedSeg_of_le {s : State} {len i : Nat} (hwf : s.seg.wf segSize = true) (h1024 : len ≤ 1024)
    (hav : len ≤ s.avail) (hi : len ≤ i) : (s.yieldedSeg len).read i = s.seg.read i := by
  have hlen := s.length_srcBytes len hav
  rw [State.yieldedSeg, Memory.read_writeBytes hwf _ 0 i (by rw [hlen, segSize]; omega), if_neg (by omega)]

theorem State.yieldedMatch_iff {s : State} {len : Nat} (hwf : s.seg.wf segSize = true) (h18 : 18 ≤ len)
    (h1024 : len ≤ 1024) (hav : len ≤ s.avail) :
    s.yieldedMatch len = true ↔ crcFinish (s.yieldedScrc len) =
      s.imageByte (s.cur.toNat + (len - 2)) ++ s.imageByte (s.cur.toNat + (len - 1)) := by
  rw [State.yieldedMatch, beq_iff_eq, State.yieldedTrailer, State.read_yieldedSeg_of_lt hwf h1024 hav (by omega),
    State.read_yieldedSeg_of_lt hwf h1024 hav (by omega)]

/-- Settles O33: the whole body before the cursor is yielded, and the rules of a yield say what `SEG`, `SCRC` and `CKOK`
are then. -/
theorem rdnextYieldsTheSegment : Obligations.RdnextYieldsTheSegment := by
  intro s len hwf hrun hlen hprefix h18 h1024 hbody
  have hpre : s.cur.toNat + 2 ≤ s.src.length := by omega
  have hcur := State.advance_two_cur_toNat hlen hpre
  have hav : len ≤ (s.advance 2).avail := by rw [State.advance_two_avail hlen hpre]; omega
  have hexec : exec .rdnext s = rdYield len (s.advance 2) := by
    rw [← s.lengthPrefix_toNat] at hprefix
    subst hprefix
    exact (execRdnext_of_two_bytes_left hrun hpre).trans (rdCheckLength_of_whole h18 h1024 hav)
  have hnext : (s.advance 2).cur + BitVec.ofNat 32 len = BitVec.ofNat 32 (s.cur.toNat + 2 + len) := by
    rw [BitVec.ofNat_add, ← hcur, BitVec.ofNat_toNat, BitVec.setWidth_eq]
  have hmatch := State.yieldedMatch_iff (s := s.advance 2) hwf h18 h1024 hav
  rw [hcur, ← Nat.add_sub_assoc (by omega), ← Nat.add_sub_assoc (by omega)] at hmatch
  refine ⟨_, hexec, fun i hi => ?_, fun i hi => ?_, ?_, hmatch, ?_⟩
  · exact (State.read_yieldedSeg_of_lt (s := s.advance 2) hwf h1024 hav hi).trans (by rw [hcur]; rfl)
  · exact State.read_yieldedSeg_of_le (s := s.advance 2) hwf h1024 hav hi
  · refine (State.yieldedScrc_eq (s := s.advance 2) hwf h1024 hav).trans ?_
    rw [State.srcBytes, List.take_take, Nat.min_eq_left (Nat.sub_le ..), hcur]
    rfl
  · rw [← hnext]
    rfl

/-! ### How the status moves (R134, `10_state.md` rule R18) -/

/-- Everything a step can do: idle, a reset, an illegal word, or an operation. -/
theorem step_cases {s t : State} (h : step s = .next t) :
    (s.inputs = [] ∧ t = s) ∨
    ∃ x rest, s.inputs = x :: rest ∧
      ((x = .reset ∧ t = State.resetEvent { s with inputs := rest }) ∨
      (∃ w e, x = .command w ∧ decode w = .error e ∧ t = State.illegalCommand { s with inputs := rest }) ∨
      (∃ w i, x = .command w ∧ decode w = .ok i ∧ exec i { s with inputs := rest } = .next t)) := by
  rcases hin : s.inputs with _ | ⟨w | _, rest⟩
  · exact .inl ⟨rfl, by simpa [step_idle hin, eq_comm] using h⟩
  · refine .inr ⟨_, rest, rfl, .inr ?_⟩
    cases hd : decode w with
    | ok i => exact .inr ⟨w, i, rfl, hd, (step_of_decode_ok hin hd).symm.trans h⟩
    | error e => exact .inl ⟨w, e, rfl, hd, by simpa [step_of_decode_error hin hd, eq_comm] using h⟩
  · exact .inr ⟨_, rest, rfl, .inl ⟨rfl, by simpa [step_reset hin, eq_comm] using h⟩⟩

/-- No operation closes a reader. -/
theorem Writes.closed_of_closed {i : Instr} {s u : State} (h : Writes i s u) (hu : u.rst = .closed) :
    s.rst = .closed := by
  cases h with
  | nothing | crc | target | searched | scr | dsc | yielded | boxaddr | tierval => exact hu
  | built => rwa [State.buildPacket_rst] at hu
  | opened => exact nomatch hu
  | ended n r hrun hr => exact absurd hu hr

/-- `RDNEXT` keeps a status other than `RUN`; a running reader it never closes, and keeps running when it yields. -/
theorem execRdnext_rst {s t : State} (h : execRdnext s = .next t) :
    (s.rst ≠ .run → t.rst = s.rst) ∧
      (s.rst = .run → t.rst ≠ .closed ∧ (t.rst = .run ↔ t.flags.segv = true)) := by
  obtain ⟨hst, rfl⟩ | ⟨c, hp, rfl⟩ | ⟨hrun, r, c, hp, rfl | ⟨-, rfl⟩⟩ | ⟨hrun, -, len, -, -, -, -, rfl⟩ :=
    execRdnext_cases h
  · exact ⟨fun _ => rfl, fun hrun => absurd (hst.symm.trans hrun) (by decide)⟩
  · exact ⟨fun _ => rfl, fun hrun => absurd hrun hp.ne_run⟩
  · exact ⟨absurd hrun, fun _ => ⟨hp.ne_closed, by simp [hp.ne_run]⟩⟩
  · exact ⟨absurd hrun, fun _ => ⟨hp.ne_closed, by simp [hp.ne_run]⟩⟩
  · exact ⟨absurd hrun, fun _ => by simp [hrun]⟩

/-- Settles O37: by what `RDOPEN`, `RDNEXT` and the other operations write, and by what a step can do. -/
theorem readerStatusMoves : Obligations.ReaderStatusMoves := by
  refine ⟨fun s t h => ?_, fun s t => execRdnext_rst, fun i s t hopen hnext h => ?_, fun s t h hclosed => ?_⟩
  · obtain rfl := (execRdopen_eq_next ..).1 h
    rfl
  · obtain ⟨-, -, -, -, -, hreader, -⟩ := onlyTheListedOperationsWrite i s t h
    by_contra hne
    exact (hreader (.inl hne)).elim hopen hnext
  · obtain ⟨-, rfl⟩ | ⟨x, rest, hin, ⟨rfl, -⟩ | ⟨w, e, -, -, rfl⟩ | ⟨w, i, -, -, hexec⟩⟩ := step_cases h
    · exact .inl hclosed
    · exact .inr (by rw [hin]; rfl)
    · exact .inl hclosed
    · obtain ⟨u, c, v, hw, rfl⟩ := exec_writes hexec
      exact .inl (hw.closed_of_closed hclosed)

end Sys2Proof.Machine
end

-- ==== The scrambler and the descrambler (`42_scrambler.md`) ====
section
/-! The four operations of the scrambler unit (R151 to R156), the bits its registers hold (R160), and what follows from
them: synchronisation (R157), lock-up (R159) and the recurrence under zero input (R158). -/

namespace Sys2Proof.Machine

/-! ### Bits and shifts of a register (R151, R153) -/

theorem Bit.ext {b b' : Bit} (h : b.getLsbD 0 = b'.getLsbD 0) : b = b' :=
  BitVec.eq_of_getLsbD_eq fun i hi => by rwa [Nat.lt_one_iff.1 hi]

theorem getLsbD_tap (s : ShiftReg) (i : Nat) : (tap s i).getLsbD 0 = s.getLsbD i := by
  simp [tap]

theorem shiftIn_eq_append (s : ShiftReg) (b : Bit) : shiftIn s b = s.extractLsb' 0 22 ++ b := by
  apply BitVec.eq_of_getLsbD_eq
  intro i hi
  rw [getLsbD_shiftIn s b hi, BitVec.getLsbD_append]
  cases i with
  | zero => rfl
  | succ i => simp [show i < 22 by omega]

theorem tap_shiftIn (s : ShiftReg) (b : Bit) {k : Nat} (hk : k < 23) :
    tap (shiftIn s b) k = if k = 0 then b else tap s (k - 1) := by
  apply Bit.ext
  rw [getLsbD_tap, getLsbD_shiftIn s b hk]
  split
  · rfl
  · rw [getLsbD_tap]

/-- The output of both units, as one exclusive or of truth values. -/
theorem xor_taps_eq_ofBool (b : Bit) (s : ShiftReg) (i j : Nat) :
    b ^^^ 1 ^^^ tap s i ^^^ tap s j = BitVec.ofBool (b.getLsbD 0 ^^ true ^^ s.getLsbD i ^^ s.getLsbD j) := by
  apply Bit.ext
  simp [tap]

/-- The taps of the shifted register are those the scrambler reads before the shift (R153). -/
theorem dscStep_snd (d : ShiftReg) (b : Bit) : (dscStep d b).2 = b ^^^ 1 ^^^ tap d 2 ^^^ tap d 19 := by
  simp [dscStep, tap_shiftIn]

/-! ### The operations (R152, R154 to R156) -/

/-- Settles O17: one write of `SCR` or `DSC`, and the words of the two loads. -/
theorem scrldAndDscldLoadOneRegister : Obligations.ScrldAndDscldLoadOneRegister :=
  ⟨fun _ _ => ⟨rfl, rfl⟩, wordRuns_op (.scrld 0) fun _ => rfl, wordRuns_op (.dscld 0) fun _ => rfl⟩

/-- Settles O18: the output is one exclusive or of truth values, the shift a concatenation. -/
theorem scrbitShiftsItsOutputIn : Obligations.ScrbitShiftsItsOutputIn := by
  refine ⟨fun s b => ?_, wordRuns_op (.scrbit 0) fun _ => rfl⟩
  intro out
  have hout : (scrStep s.scr b).2 = out := xor_taps_eq_ofBool b s.scr 2 19
  have hreg : (scrStep s.scr b).1 = s.scr.extractLsb' 0 22 ++ out := by
    rw [← hout, ← shiftIn_eq_append]
    rfl
  rw [← hreg, ← hout]
  rfl

/-- Settles O19: the shift is a concatenation, the output one exclusive or of truth values of the shifted register. -/
theorem dscbitShiftsTheReceivedBitIn : Obligations.DscbitShiftsTheReceivedBitIn := by
  refine ⟨fun s b => ?_, wordRuns_op (.dscbit 0) fun _ => rfl⟩
  intro dsc' out
  have hreg : (dscStep s.dsc b).1 = dsc' := shiftIn_eq_append s.dsc b
  have hout : (dscStep s.dsc b).2 = out := by
    rw [show out = b ^^^ 1 ^^^ tap dsc' 3 ^^^ tap dsc' 20 from (xor_taps_eq_ofBool b dsc' 3 20).symm, ← hreg]
    rfl
  rw [← hreg, ← hout]
  rfl

/-! ### The bits the registers hold (R160) -/

theorem length_runBits (f : ShiftReg → Bit → ShiftReg × Bit) (bits : List Bit) :
    ∀ s, (runBits f s bits).2.length = bits.length := by
  induction bits with
  | nil => exact fun _ => rfl
  | cons b bits ih => exact fun s => congrArg (· + 1) (ih _)

/-- The scrambler shifts in its outputs. -/
theorem runBits_scrStep_fst (bits : List Bit) :
    ∀ s, (runBits scrStep s bits).1 = (runBits scrStep s bits).2.foldl shiftIn s := by
  induction bits with
  | nil => exact fun _ => rfl
  | cons b bits ih => exact fun s => ih _

/-- The descrambler shifts in what it receives. -/
theorem runBits_dscStep_fst (bits : List Bit) : ∀ s, (runBits dscStep s bits).1 = bits.foldl shiftIn s := by
  induction bits with
  | nil => exact fun _ => rfl
  | cons b bits ih => exact fun s => ih _

theorem tap_foldl_shiftIn (s : ShiftReg) (bits : List Bit) {k : Nat} (hk : k < 23) :
    tap (bits.foldl shiftIn s) k =
      if k < bits.length then bits.getD (bits.length - 1 - k) 0 else tap s (k - bits.length) := by
  induction bits using List.reverseRecOn generalizing k with
  | nil => rfl
  | append_singleton bits b ih =>
    rw [List.foldl_append, List.foldl_cons, List.foldl_nil, tap_shiftIn _ _ hk, List.length_append,
      List.length_singleton]
    cases k with
    | zero => simp
    | succ k =>
      have hold : bits.length + 1 - 1 - (k + 1) = bits.length - 1 - k := by omega
      rw [if_neg k.succ_ne_zero, hold, Nat.add_sub_cancel, ih (by omega), Nat.add_sub_add_right]
      simp only [Nat.add_lt_add_iff_right]
      split
      · rw [List.getD_append _ _ _ _ (by omega)]
      · rfl

/-- Settles O22: each register has shifted in one bit a step, and a bit `k` places up came `k` steps before. -/
theorem registersHoldTheLastBits : Obligations.RegistersHoldTheLastBits := by
  intro s bits k hk
  rw [runBits_scrStep_fst, runBits_dscStep_fst, tap_foldl_shiftIn _ _ hk, tap_foldl_shiftIn _ _ hk, length_runBits]
  exact ⟨rfl, rfl⟩

/-- As many low bits agree as have been shifted into both registers. -/
theorem getLsbD_foldl_shiftIn_congr (s s' : ShiftReg) {bits : List Bit} {i : Nat} (hi : i < 23)
    (hlen : i < bits.length) : (bits.foldl shiftIn s).getLsbD i = (bits.foldl shiftIn s').getLsbD i := by
  rw [← getLsbD_tap, ← getLsbD_tap, tap_foldl_shiftIn s bits hi, tap_foldl_shiftIn s' bits hi, if_pos hlen,
    if_pos hlen]

/-! ### Synchronisation (R157) -/

/-- Settles O20: both units add the same taps, so the two additions cancel; both shift in the bit on the wire. -/
theorem aSynchronisedStepRecoversTheBit : Obligations.ASynchronisedStepRecoversTheBit := by
  intro s d b h
  have hbits := (low20_eq_iff d s).1 h
  refine ⟨?_, low20_shiftIn_congr h _⟩
  rw [dscStep_snd, tap_congr (hbits 2 (by decide)), tap_congr (hbits 19 (by decide)), scrStep]
  grind

/-- What one bit through both units leaves (R78). -/
theorem hostPassBit_eq_next (b : Bit) (s : State) :
    ∃ t, hostPassBit b s = .next t ∧ t.scr = shiftIn s.scr (scrStep s.scr b).2 ∧
      t.dsc = shiftIn s.dsc (scrStep s.scr b).2 ∧
      t.lastVal = (dscStep s.dsc (scrStep s.scr b).2).2.setWidth 32 := by
  have hsent : ((scrStep s.scr b).2.setWidth 32).setWidth 1 = (scrStep s.scr b).2 := by simp
  have hpass : hostPassBit b s = execDscbit (((scrStep s.scr b).2.setWidth 32).setWidth 1) _ := rfl
  rw [hsent] at hpass
  exact ⟨_, hpass, rfl, rfl, rfl⟩

/-- Both registers take in the scrambler's outputs. -/
theorem hostPassBits_eq_next (bits : List Bit) :
    ∀ s : State, ∃ t, hostPassBits bits s = .next t ∧
      t.scr = (runBits scrStep s.scr bits).2.foldl shiftIn s.scr ∧
      t.dsc = (runBits scrStep s.scr bits).2.foldl shiftIn s.dsc := by
  induction bits with
  | nil => exact fun s => ⟨s, rfl, rfl, rfl⟩
  | cons b bits ih =>
    intro s
    obtain ⟨t, hpass, hscr, hdsc, -⟩ := hostPassBit_eq_next b s
    obtain ⟨u, hrest, hscr', hdsc'⟩ := ih t
    rw [hscr] at hscr'
    rw [hscr, hdsc] at hdsc'
    exact ⟨u, by rw [hostPassBits, hpass]; exact hrest, hscr', hdsc'⟩

/-- Settles O21: both registers hold the scrambler's last outputs, and from agreement in 20 of them on the next bit is
recovered. -/
theorem scramblerRoundTrip : Obligations.ScramblerRoundTrip := by
  intro s sent b h20
  obtain ⟨t, hpass, hscr, hdsc⟩ := hostPassBits_eq_next sent s
  have hagree {i : Nat} (hi : i < 23) (hsent : i < sent.length) : t.dsc.getLsbD i = t.scr.getLsbD i := by
    rw [hscr, hdsc]
    exact getLsbD_foldl_shiftIn_congr _ _ hi (by rwa [length_runBits])
  have hlow : low20 t.dsc = low20 t.scr := (low20_eq_iff ..).2 fun i hi => hagree (by omega) (by omega)
  obtain ⟨u, hnext, -, -, hval⟩ := hostPassBit_eq_next b t
  refine ⟨t, u, hpass, hlow, fun h23 => BitVec.eq_of_getLsbD_eq fun i hi => hagree hi (by omega), hnext, ?_⟩
  rw [hval, (aSynchronisedStepRecoversTheBit t.scr t.dsc b hlow).1]

/-! ### Lock-up (R159) -/

theorem runBits_replicate_of_fixed {f : ShiftReg → Bit → ShiftReg × Bit} {s : ShiftReg} {b o : Bit}
    (h : f s b = (s, o)) (n : Nat) : runBits f s (List.replicate n b) = (s, List.replicate n o) := by
  induction n with
  | zero => rfl
  | succ n ih => rw [List.replicate_succ, runBits, h, ih, List.replicate_succ]

/-- Settles O24: the outputs depend on the low 20 bits only, and each class holds a fixed point of its input. -/
theorem lockUpGivesAConstantOutput : Obligations.LockUpGivesAConstantOutput := by
  intro s n
  have hones : scrStep 0x7FFFFF 0 = (0x7FFFFF, 1) := by decide
  have hzeros : scrStep 0 1 = (0, 0) := by decide
  refine ⟨fun h => ?_, fun h => ?_⟩
  · rw [scrStep_low20Step.runBits_outputs _ s 0x7FFFFF h, runBits_replicate_of_fixed hones]
  · rw [scrStep_low20Step.runBits_outputs _ s 0 h, runBits_replicate_of_fixed hzeros]

/-! ### Zero input (R158) -/

/-- One step of the scrambler under zero input. -/
def zeroStep (s : ShiftReg) : ShiftReg := (scrStep s 0).1

theorem zeroSteps_eq_iterate (n : Nat) : ∀ s, zeroSteps n s = zeroStep^[n] s := by
  induction n with
  | zero => exact fun _ => rfl
  | succ n ih => exact fun s => ih (zeroStep s)

theorem getLsbD_zeroStep_zero (s : ShiftReg) : (zeroStep s).getLsbD 0 = !(s.getLsbD 2 ^^ s.getLsbD 19) := by
  rw [zeroStep, scrStep, getLsbD_shiftIn _ _ (by decide), if_pos rfl]
  simp [tap]

theorem getLsbD_zeroStep_succ (s : ShiftReg) {i : Nat} (hi : i < 22) :
    (zeroStep s).getLsbD (i + 1) = s.getLsbD i := by
  rw [zeroStep, scrStep, getLsbD_shiftIn _ _ (by omega), if_neg i.succ_ne_zero, Nat.add_sub_cancel]

/-- The recurrence of R160 under zero input at one place of a register; `Recurrent` asks it of the places 0, 1, 2. -/
def RecursAt (s : ShiftReg) (i : Nat) : Prop := s.getLsbD i = !(s.getLsbD (i + 3) ^^ s.getLsbD (i + 20))

theorem recursAt_zeroStep_zero (s : ShiftReg) : RecursAt (zeroStep s) 0 := by
  rw [RecursAt, getLsbD_zeroStep_zero, getLsbD_zeroStep_succ s (by decide), getLsbD_zeroStep_succ s (by decide)]

theorem RecursAt.zeroStep_succ {s : ShiftReg} {i : Nat} (h : RecursAt s i) (hi : i < 2) :
    RecursAt (zeroStep s) (i + 1) := by
  rw [RecursAt, Nat.add_right_comm i 1 3, Nat.add_right_comm i 1 20, getLsbD_zeroStep_succ s (by omega),
    getLsbD_zeroStep_succ s (by omega), getLsbD_zeroStep_succ s (by omega)]
  exact h

theorem recursAt_iterate_zeroStep (s : ShiftReg) {n i : Nat} (hi : i < 3) (hn : i < n) :
    RecursAt (zeroStep^[n] s) i := by
  induction n generalizing i with
  | zero => omega
  | succ n ih =>
    rw [Function.iterate_succ_apply']
    cases i with
    | zero => exact recursAt_zeroStep_zero _
    | succ i => exact (ih (by omega) (by omega)).zeroStep_succ (by omega)

theorem recurrent_zeroStep {s : ShiftReg} (h : Recurrent s) : Recurrent (zeroStep s)
  | 0, _ => recursAt_zeroStep_zero s
  | i + 1, hi => RecursAt.zeroStep_succ (h i (by omega)) (by omega)

/-- A fixed point has all its bits equal, and zeros do not recur. -/
theorem zeroStep_eq_self_iff (s : ShiftReg) : zeroStep s = s ↔ s = 0x7FFFFF := by
  refine ⟨fun h => ?_, by rintro rfl; decide⟩
  have hall : ∀ i < 23, s.getLsbD i = s.getLsbD 0 := by
    intro i
    induction i with
    | zero => exact fun _ => rfl
    | succ i ih =>
      intro hi
      calc s.getLsbD (i + 1) = (zeroStep s).getLsbD (i + 1) := by rw [h]
        _ = s.getLsbD i := getLsbD_zeroStep_succ s (by omega)
        _ = s.getLsbD 0 := ih (by omega)
  have hone := getLsbD_zeroStep_zero s
  rw [h, hall 2 (by decide), hall 19 (by decide), Bool.xor_self] at hone
  rw [show (0x7FFFFF : ShiftReg) = BitVec.allOnes 23 from rfl]
  apply BitVec.eq_of_getLsbD_eq
  intro i hi
  rw [hall i hi, hone, BitVec.getLsbD_allOnes, decide_eq_true hi]
  rfl

/-- Settles O25: each step makes the recurrence hold at place 0 and moves the places where it held up by one. -/
theorem zeroInputSettlesInThreeSteps : Obligations.ZeroInputSettlesInThreeSteps := by
  intro s
  simp only [zeroSteps_eq_iterate, Function.iterate_one]
  exact ⟨fun i hi => recursAt_iterate_zeroStep s hi hi, recurrent_zeroStep, zeroStep_eq_self_iff s⟩

end Sys2Proof.Machine
end

-- ==== The cycle of the scrambler (`42_scrambler.md`) ====
section
/-! The cycle length of R158. On complemented registers a step under zero input is linear over GF(2), and on the cycle
`x^20 = x^17 + 1` holds of it, so a power of it is a polynomial of degree below 20, found by squaring. The period divides
1048575, and five such powers show that it divides no quotient of that by a prime. -/

namespace Sys2Proof.Machine

/-! ### Complemented registers: zero input is a linear map (R158) -/

/-- `zeroStep` on complemented registers: the constant 1 of R151 is gone. -/
def linStep (s : ShiftReg) : ShiftReg := shiftIn s (tap s 2 ^^^ tap s 19)

/-- The map takes exclusive ors to exclusive ors. -/
def IsLinear (g : ShiftReg → ShiftReg) : Prop := ∀ s s', g (s ^^^ s') = g s ^^^ g s'

theorem linStep_isLinear : IsLinear linStep := by
  intro s s'
  apply BitVec.eq_of_getLsbD_eq
  intro i hi
  rw [BitVec.getLsbD_xor]
  simp only [linStep, getLsbD_shiftIn _ _ hi, BitVec.getLsbD_xor, getLsbD_tap]
  split
  · simp only [Bool.xor_assoc, Bool.xor_left_comm]
  · rfl

theorem complement_linStep : Function.Semiconj (fun s => ~~~s) linStep zeroStep := by
  intro s
  apply BitVec.eq_of_getLsbD_eq
  intro i hi
  cases i with
  | zero => simp [getLsbD_zeroStep_zero, linStep, getLsbD_shiftIn, getLsbD_tap, -BitVec.getLsbD_eq_getElem]
  | succ i =>
    rw [getLsbD_zeroStep_succ _ (by omega), BitVec.getLsbD_not, BitVec.getLsbD_not, linStep, getLsbD_shiftIn _ _ hi,
      if_neg i.succ_ne_zero, Nat.add_sub_cancel, decide_eq_true hi, decide_eq_true (by omega : i < 23)]

theorem zeroSteps_eq_complement (n : Nat) (s : ShiftReg) : zeroSteps n s = ~~~(linStep^[n] (~~~s)) := by
  have h := complement_linStep.iterate_right n (~~~s)
  rw [zeroSteps_eq_iterate, h, BitVec.not_not]

theorem zeroSteps_eq_self_iff (n : Nat) (s : ShiftReg) :
    zeroSteps n s = s ↔ Function.IsPeriodicPt linStep n (~~~s) := by
  rw [zeroSteps_eq_complement]
  exact BitVec.not_eq_comm

/-! ### Powers of a linear map by polynomial arithmetic -/

/-- The register times a coefficient in GF(2). -/
def scale (a : Bool) (s : ShiftReg) : ShiftReg := bif a then s else 0#23

/-- The value at `g` of a polynomial over GF(2), applied to a register; the constant coefficient comes first. -/
def polyEval (g : ShiftReg → ShiftReg) : List Bool → ShiftReg → ShiftReg
  | [], _ => 0#23
  | a :: p, s => scale a s ^^^ g (polyEval g p s)

/-- The sum, coefficient by coefficient. -/
def polyAdd : List Bool → List Bool → List Bool
  | [], q => q
  | p, [] => p
  | a :: p, b :: q => (a ^^ b) :: polyAdd p q

/-- The square: over GF(2) the coefficients move to twice their degrees. -/
def polySquare : List Bool → List Bool
  | [] => []
  | a :: p => a :: false :: polySquare p

/-- One use of `x^20 = x^17 + 1` on the terms of degree 20 and more. -/
def polyReduce (p : List Bool) : List Bool :=
  polyAdd (p.take 20) (polyAdd (List.replicate 17 false ++ p.drop 20) (p.drop 20))

/-- `x^n` for `n < 2^k`, by squaring. Each reduction of a degree above 19 takes 3 off it, so 7 do for 39. -/
def polyXPow : Nat → Nat → List Bool
  | 0, _ => [true]
  | k + 1, n => polyReduce^[7] (List.replicate (n % 2) false ++ polySquare (polyXPow k (n / 2)))

@[simp] theorem scale_false (s : ShiftReg) : scale false s = 0#23 := rfl

@[simp] theorem scale_true (s : ShiftReg) : scale true s = s := rfl

theorem scale_xor (a b : Bool) (s : ShiftReg) : scale (a ^^ b) s = scale a s ^^^ scale b s := by
  cases a <;> cases b <;> simp

theorem scale_isLinear (a : Bool) : IsLinear (scale a) := by
  cases a <;> simp [IsLinear]

theorem scale_scale (a : Bool) (s : ShiftReg) : scale a (scale a s) = scale a s := by
  cases a <;> rfl

theorem polyEval_replicate_false_append (g : ShiftReg → ShiftReg) (k : Nat) (p : List Bool) (s : ShiftReg) :
    polyEval g (List.replicate k false ++ p) s = g^[k] (polyEval g p s) := by
  induction k with
  | zero => rfl
  | succ k ih =>
    rw [List.replicate_succ, List.cons_append, polyEval, ih, Function.iterate_succ_apply', scale_false, BitVec.zero_xor]

section
variable {g : ShiftReg → ShiftReg} (hg : IsLinear g)
include hg

theorem IsLinear.map_zero : g 0#23 = 0#23 := by
  simpa using hg 0#23 0#23

theorem IsLinear.map_scale (a : Bool) (s : ShiftReg) : g (scale a s) = scale a (g s) := by
  cases a
  · exact hg.map_zero
  · rfl

theorem polyEval_isLinear (p : List Bool) : IsLinear (polyEval g p) := by
  intro s s'
  induction p with
  | nil => simp [polyEval]
  | cons a p ih =>
    rw [polyEval, polyEval, polyEval, ih, hg, scale_isLinear]
    ac_rfl

/-- A polynomial in `g` commutes with `g`. -/
theorem polyEval_commute (p : List Bool) : Function.Commute (polyEval g p) g := by
  intro s
  induction p with
  | nil => exact hg.map_zero.symm
  | cons a p ih => rw [polyEval, polyEval, ih, hg, hg.map_scale]

theorem polyEval_iterate (p : List Bool) (k : Nat) (s : ShiftReg) : polyEval g p (g^[k] s) = g^[k] (polyEval g p s) :=
  (polyEval_commute hg p).iterate_right k s

theorem polyEval_add (p q : List Bool) (s : ShiftReg) :
    polyEval g (polyAdd p q) s = polyEval g p s ^^^ polyEval g q s := by
  induction p, q using polyAdd.induct with
  | case1 q => simp [polyAdd, polyEval]
  | case2 p hp => simp [polyAdd, polyEval]
  | case3 a p b q ih =>
    rw [polyAdd, polyEval, ih, hg, polyEval, polyEval, scale_xor]
    ac_rfl

/-- The cross terms of a square come twice and cancel. -/
theorem polyEval_square (p : List Bool) (s : ShiftReg) :
    polyEval g (polySquare p) s = polyEval g p (polyEval g p s) := by
  induction p with
  | nil => rfl
  | cons a p ih =>
    have hp := polyEval_isLinear hg p
    calc polyEval g (polySquare (a :: p)) s
        = scale a s ^^^ g (g (polyEval g p (polyEval g p s))) := by simp [polySquare, polyEval, ih]
      _ = scale a s ^^^ scale a (g (polyEval g p s)) ^^^
            (scale a (g (polyEval g p s)) ^^^ g (g (polyEval g p (polyEval g p s)))) := by
        rw [BitVec.xor_assoc, ← BitVec.xor_assoc (scale a (g _)), BitVec.xor_self, BitVec.zero_xor]
      _ = polyEval g (a :: p) (polyEval g (a :: p) s) := by
        rw [polyEval, polyEval, scale_isLinear, scale_scale, hp, hp.map_scale, polyEval_commute hg p, hg, hg.map_scale]

theorem polyEval_take_drop (k : Nat) (p : List Bool) (s : ShiftReg) :
    polyEval g p s = polyEval g (p.take k) s ^^^ g^[k] (polyEval g (p.drop k) s) := by
  induction k generalizing p with
  | zero => simp [polyEval]
  | succ k ih =>
    cases p with
    | nil => simpa [polyEval] using (Function.iterate_fixed hg.map_zero (k + 1)).symm
    | cons a p =>
      rw [List.take_succ_cons, List.drop_succ_cons, polyEval, polyEval, ih p, hg, Function.iterate_succ_apply',
        BitVec.xor_assoc]

theorem polyEval_reduce {s : ShiftReg} (hs : g^[20] s = g^[17] s ^^^ s) (p : List Bool) :
    polyEval g (polyReduce p) s = polyEval g p s := by
  have hhigh : g^[20] (polyEval g (p.drop 20) s) =
      g^[17] (polyEval g (p.drop 20) s) ^^^ polyEval g (p.drop 20) s := by
    rw [← polyEval_iterate hg, hs, polyEval_isLinear hg, polyEval_iterate hg]
  rw [polyReduce, polyEval_add hg, polyEval_add hg, polyEval_replicate_false_append, ← hhigh,
    ← polyEval_take_drop hg]

theorem polyEval_iterate_reduce {s : ShiftReg} (hs : g^[20] s = g^[17] s ^^^ s) (k : Nat) (p : List Bool) :
    polyEval g (polyReduce^[k] p) s = polyEval g p s := by
  induction k with
  | zero => rfl
  | succ k ih => rw [Function.iterate_succ_apply', polyEval_reduce hg hs, ih]

theorem polyEval_xPow {s : ShiftReg} (hs : g^[20] s = g^[17] s ^^^ s) (k : Nat) :
    ∀ n < 2 ^ k, polyEval g (polyXPow k n) s = g^[n] s := by
  induction k with
  | zero =>
    intro n hn
    obtain rfl : n = 0 := by omega
    simp [polyXPow, polyEval, hg.map_zero]
  | succ k ih =>
    intro n hn
    have hhalf := ih (n / 2) (by omega)
    have hsplit : n % 2 + n / 2 + n / 2 = n := by omega
    rw [polyXPow, polyEval_iterate_reduce hg hs, polyEval_replicate_false_append, polyEval_square hg, hhalf,
      polyEval_iterate hg, hhalf, ← Function.iterate_add_apply, ← Function.iterate_add_apply, hsplit]

end

/-! ### The period (R158) -/

/-- A multiple of the period is the period when no quotient of it by a prime is. -/
theorem minimalPeriod_eq_of_prime_quotients {α : Type} {f : α → α} {x : α} {n : Nat}
    (h : Function.IsPeriodicPt f n x) (hq : ∀ q, q.Prime → q ∣ n → ¬ Function.IsPeriodicPt f (n / q) x) :
    Function.minimalPeriod f x = n := by
  obtain ⟨k, hk⟩ := h.minimalPeriod_dvd
  by_contra hne
  have hk1 : k ≠ 1 := by
    rintro rfl
    exact hne (by rw [hk, Nat.mul_one])
  obtain ⟨q, hprime, j, rfl⟩ := Nat.exists_prime_and_dvd hk1
  have hsplit : n = q * (Function.minimalPeriod f x * j) := by rw [Nat.mul_left_comm]; exact hk
  refine hq q hprime ⟨_, hsplit⟩ (Function.isPeriodicPt_iff_minimalPeriod_dvd.2 ⟨j, ?_⟩)
  exact Nat.div_eq_of_eq_mul_right hprime.pos hsplit

/-- `1048575 = 3 * 5 * 5 * 11 * 31 * 41`. -/
theorem mem_of_prime_dvd_cycle {q : Nat} (hq : q.Prime) (h : q ∣ 1048575) : q ∈ [3, 5, 5, 11, 31, 41] :=
  mem_list_primes_of_dvd_prod hq.prime (by simp only [← Nat.prime_iff]; norm_num) h

/-- The register at the start of the cycle satisfies `x^20 = x^17 + 1`. -/
theorem linStep_iterate_eq {n : Nat} (hn : n < 2 ^ 20) :
    linStep^[n] (~~~0x0E3723) = polyEval linStep (polyXPow 20 n) (~~~0x0E3723) :=
  (polyEval_xPow linStep_isLinear (by decide) 20 n hn).symm

theorem minimalPeriod_linStep : Function.minimalPeriod linStep (~~~0x0E3723) = 1048575 := by
  have hne : ∀ q ∈ [3, 5, 5, 11, 31, 41],
      polyEval linStep (polyXPow 20 (1048575 / q)) (~~~0x0E3723) ≠ ~~~0x0E3723 := by decide +kernel
  refine minimalPeriod_eq_of_prime_quotients ?_ fun q hq hdvd hper => ?_
  · exact (linStep_iterate_eq (by decide)).trans (by decide +kernel)
  · refine hne q (mem_of_prime_dvd_cycle hq hdvd) ?_
    rw [← linStep_iterate_eq ((Nat.div_le_self ..).trans_lt (by decide))]
    exact hper

/-- Settles O26: the register first returns after the period of the linear step at its complement. -/
theorem scramblerCycleLength : Obligations.ScramblerCycleLength := by
  simp only [Obligations.ScramblerCycleLength, ne_eq, zeroSteps_eq_self_iff]
  refine ⟨by decide +kernel, ?_, fun n hpos hlt hper => ?_⟩
  · rw [← minimalPeriod_linStep]
    exact Function.isPeriodicPt_minimalPeriod ..
  · have hle := hper.minimalPeriod_le hpos
    rw [minimalPeriod_linStep] at hle
    omega

end Sys2Proof.Machine
end

-- ==== The builder operations (`43_builder.md`) ====
section
/-! What `CPBUILD` leaves (R173, R174), the four operations of the builder, and that a built packet is a segment
(R176). -/

namespace Sys2Proof.Machine

/-! ### The bytes of the built header (R173) -/

theorem Memory.map_read_range (m : Memory) (n : Nat) : (List.range n).map m.read = m.readBytes 0 n := by
  refine List.ext_getElem (by simp) fun i hi _ => ?_
  rw [List.length_map, List.length_range] at hi
  rw [List.getElem_map, List.getElem_range, ← List.getD_eq_getElem _ 0, Memory.getD_readBytes _ _ _ _ hi, Nat.zero_add]

/-- A build leaves everything above the 16 header bytes. -/
theorem State.read_builtHdr_of_le {s : State} {a : Nat} (hwf : s.hdr.wf hdrSize = true) (ha : 16 ≤ a) :
    s.builtHdr.read a = s.hdr.read a := by
  rw [State.builtHdr, Memory.read_writeBytes hwf _ 0 a (by rw [length_headerBytes, hdrSize]),
    if_neg (by rw [length_headerBytes]; omega)]

/-! ### The search of a build (R174) -/

theorem State.hitBit_answer (s : State) (c : Code) (v : Word) (n : Nat) : (s.answer c v).hitBit n = s.hitBit n := rfl

/-- A response is no part of a search's record. -/
theorem State.SearchWf.answer {s : State} (h : s.SearchWf) (c : Code) (v : Word) : (s.answer c v).SearchWf := h

theorem State.searchWf_buildPacket (s : State) : s.buildPacket.SearchWf := .search s.buildHeader s.builtHcrc

/-- Everything a build writes, field by field. -/
theorem State.buildPacket_eq (s : State) :
    s.buildPacket = { s with
      hdr := s.builtHdr
      hcrc := s.builtHcrc
      flags := s.flags.built
      hitmap := s.hitsFrom s.builtHcrc
      ncnt := BitVec.ofNat 17 (s.hitsFrom s.builtHcrc).length
      nonce := BitVec.ofNat 16 ((s.hitsFrom s.builtHcrc).headD 0) } := by
  simp only [State.buildPacket, State.search, State.recordHits, State.buildHeader, State.hitsFrom]

/-! ### The operations -/

theorem execCpbuild_of_set {s : State} (h : s.boxaddr.getLsbD 31 = true) :
    execCpbuild s = respond .ok (s.buildPacket.ncnt.setWidth 32) s.buildPacket :=
  if_pos (s.boxaddr.msb_eq_getLsbD_last.trans h)

theorem execCpbuild_of_clear {s : State} (h : s.boxaddr.getLsbD 31 = false) :
    execCpbuild s = raise .errPrecondition s :=
  if_neg (ne_true_of_eq_false (s.boxaddr.msb_eq_getLsbD_last.trans h))

/-- Settles O40: one write each, and no immediate has a reserved bit. -/
theorem cpaddrAndCptierStoreTheOperands : Obligations.CpaddrAndCptierStoreTheOperands :=
  ⟨fun _ _ => ⟨rfl, rfl⟩, fun _ v _ =>
    ⟨fun hin => step_of_decode_ok hin (decode_encode (.cpaddr v)),
      fun hin => step_of_decode_ok hin (decode_encode (.cptier v))⟩⟩

/-- Settles O41: the header is read back as it was written, and the search a build records is well formed, which is what
makes `NCNT` and `NONCE` tell of its hits. -/
theorem cpbuildBuildsAndSearches : Obligations.CpbuildBuildsAndSearches := by
  refine ⟨fun s hwf hset => ?_, fun s => execCpbuild_of_clear, wordRuns_op .cpbuild fun _ => rfl⟩
  have hsearch := s.searchWf_buildPacket.answer .ok (s.buildPacket.ncnt.setWidth 32)
  refine ⟨_, execCpbuild_of_set hset, ?_, fun i hi => ?_, ?_, fun n => ?_, hsearch.ncnt_eq_card,
    fun _ => hsearch.nonce_lowest, hsearch.nonce_eq_zero, ?_⟩
  · rw [State.answer_hdr, State.buildPacket_hdr, Memory.map_read_range, State.readBytes_builtHdr hwf]
    rfl
  · rw [State.answer_hdr, State.buildPacket_hdr, State.read_builtHdr_of_le hwf hi]
  · rw [State.answer_hdr, State.answer_hcrc, State.buildPacket_hcrc, State.buildPacket_hdr, Memory.map_read_range]
    rfl
  · rw [State.hitBit_answer, State.answer_hcrc, State.buildPacket_hcrc]
    exact s.buildHeader.search_hitBit_iff s.builtHcrc n
  · simp only [State.buildPacket_eq, State.answer, Flags.built]

/-- Settles O42: the two answers of `CPLDB`, and its words. -/
theorem cpldbReadsTheBuiltHeader : Obligations.CpldbReadsTheBuiltHeader := by
  refine ⟨fun s i => ?_, wordRuns_op (.cpldb 0) fun _ => rfl⟩
  cases hhdrv : s.flags.hdrv with
  | false => exact if_neg (ne_true_of_eq_false hhdrv)
  | true => exact if_pos hhdrv

/-! ### The checksum of the finished packet (R176) -/

/-- The hits of a build are what the header has to be followed by to reach `TARGET`. -/
theorem State.buildPacket_hitBit_iff (s : State) (n : Half) :
    s.buildPacket.hitBit n.toNat = true ↔
      crcBytes Config.poly crcInit (s.builtHdr.readBytes 0 16 ++ bytesBE n) = s.target := by
  rw [crcBytes_append]
  exact s.buildHeader.search_hitBit_iff s.builtHcrc n

/-- Every target is reached from every running value (R105), so a search always has a hit, and `NONCE` is one. -/
theorem State.hitBit_nonce_search (s : State) (c : Half) : (s.search c).hitBit (s.search c).nonce.toNat = true := by
  obtain ⟨k, hk⟩ := mulx16_surjective poly_getLsbD_zero s.target
  have hhit : (s.search c).hitBit (c ^^^ k).toNat = true := by
    rw [State.search_hitBit_iff, crcUpdate_hiByte_loByte, ← BitVec.xor_assoc, BitVec.xor_self, BitVec.zero_xor, hk]
  exact ((State.SearchWf.search s c).nonce_lowest hhit).1

theorem State.finishedPacket_buildPacket (s : State) :
    s.buildPacket.finishedPacket = s.builtHdr.readBytes 0 16 ++ bytesBE s.buildPacket.nonce := by
  rw [State.finishedPacket, State.buildPacket_hdr, Config.hdrLen]

theorem State.finishedPacket_answer (s : State) (c : Code) (v : Word) :
    (s.answer c v).finishedPacket = s.finishedPacket := rfl

theorem State.length_finishedPacket (s : State) : s.finishedPacket.length = 18 := by
  rw [State.finishedPacket, List.length_append, Memory.length_readBytes]
  rfl

theorem State.crcBytes_finishedPacket (s : State) :
    crcBytes Config.poly crcInit s.buildPacket.finishedPacket = s.target := by
  rw [State.finishedPacket_buildPacket, ← State.buildPacket_hitBit_iff]
  exact s.buildHeader.hitBit_nonce_search s.builtHcrc

/-! ### A built packet as a segment (R106, R176) -/

/-- The built header read as a segment header (R43): the box address lies over image number and segment number's low
byte, the command byte over the owner, the tier over the tier, and the rest is 0. -/
def packetHeader (addr tier : Word) : SegHeader where
  imageNumber := addr.extractLsb' 8 24
  segmentLsb := addr.extractLsb' 0 8
  owner := Config.cmdSetTiers
  tierBits := tier
  reserved := 0
  flags := 0
  segmentNumber := 0
  offset := 0

theorem bytes_packetHeader (addr tier : Word) : (packetHeader addr tier).bytes = headerBytes addr tier := by
  have himage : ∀ i, i + 8 ≤ 24 → (addr.extractLsb' 8 24).extractLsb' i 8 = addr.extractLsb' (8 + i) 8 := by
    intro i hi
    refine BitVec.eq_of_getLsbD_eq fun j hj => ?_
    simp [hj, show i + j < 24 by omega, Nat.add_assoc]
  simp only [SegHeader.bytes, packetHeader, himage 16 (by decide), himage 8 (by decide), himage 0 (by decide)]
  rfl

/-- With the default target the nonce is the trailer of the header (R105), so the packet is a segment without data. -/
theorem State.finishedPacket_eq_segmentBytes {s : State} (hwf : s.hdr.wf hdrSize = true) (htarget : s.target = 0x1D0F) :
    s.buildPacket.finishedPacket = segmentBytes (packetHeader s.boxaddr s.tierval) [] := by
  obtain ⟨hnonce, -⟩ := theNonceIsTheFinishedChecksum s.builtHcrc
  rw [State.finishedPacket_buildPacket, State.readBytes_builtHdr hwf, State.buildPacket_nonce, State.hitsFrom, htarget,
    hnonce, List.headD_cons, BitVec.ofNat_toNat, BitVec.setWidth_eq, State.builtHcrc_eq hwf, segmentBytes,
    bytes_packetHeader, List.append_nil, trailerBytes]

theorem exec_responses_tail {i : Instr} {s t : State} (h : exec i s = .next t) : t.responses.tail = s.responses := by
  obtain ⟨u, r, hexec, hresp, -⟩ := exec_answersFrom i s
  obtain rfl : t = u := Host.Outcome.next.inj (h.symm.trans hexec)
  rw [hresp, List.tail_cons]

/-- A fresh block over an image, once `RDOPEN` has run. -/
def openedReader (image : List Byte) (a b : ShiftReg) : State := (State.resetWith image a b).opened.answer .ok 0

theorem openedReader_reading {image : List Byte} (a b : ShiftReg) (hlen : image.length < 2 ^ 32) :
    (openedReader image a b).Reading image :=
  ⟨(Writes.opened.inv (State.inv_resetWith a b hlen)).answer .ok 0, rfl, rfl⟩

/-- `RDOPEN` and `RDNEXT` on a fresh block over an image of one body answer `OK` and then judge the body. -/
theorem afterInputs_rdopen_rdnext {body : List Byte} (a b : ShiftReg) (h18 : 18 ≤ body.length)
    (h1024 : body.length ≤ 1024) :
    ∃ u : State,
      (State.resetWith (prefixBytes body.length ++ body) a b).afterInputs
        [.command 0x3000000000, .command 0x3100000000] = .next u ∧
      u.HasYielded body ∧ u.responses.tail = [⟨.ok, 0⟩] := by
  have hlen : (prefixBytes body.length ++ body).length < 2 ^ 32 := by
    rw [List.length_append]
    exact (Nat.add_le_add_left h1024 _).trans_lt (by decide : 2 + 1024 < 2 ^ 32)
  have hreading : (openedReader (prefixBytes body.length ++ body) a b).Reading
      (prefixBytes body.length ++ (body ++ [])) := by
    rw [List.append_nil]
    exact openedReader_reading a b hlen
  obtain ⟨u, hread, hin, -, hyielded⟩ := hreading.rdnext_body h18 h1024
  have hopened : (openedReader (prefixBytes body.length ++ body) a b).afterInputs [.command 0x3100000000] = .next u :=
    (State.afterInputs_command rfl hread hin).trans (State.afterInputs_nil hin)
  have hopen : exec .rdopen { State.resetWith (prefixBytes body.length ++ body) a b with
    inputs := [.command 0x3100000000] } = .next _ := rfl
  exact ⟨u, (State.afterInputs_command rfl hopen rfl).trans hopened, hyielded, exec_responses_tail hread⟩

/-- A segment laid out by R43 ends in the trailer of what stands before it (R46). -/
theorem trailerBytes_segmentBytes (h : SegHeader) (data : List Byte) :
    trailerBytes ((segmentBytes h data).take ((segmentBytes h data).length - 2)) =
      (segmentBytes h data).drop ((segmentBytes h data).length - 2) := by
  have hcovered : (segmentBytes h data).length - 2 = (h.bytes ++ data).length := by
    rw [segmentBytes, List.length_append]
    rfl
  rw [hcovered, segmentBytes, List.take_left, List.drop_left]

/-- A segment with its right trailer is answered `OK` (R130). -/
theorem State.HasYielded.responses_eq {s : State} {h : SegHeader} {data : List Byte}
    (hyielded : s.HasYielded (segmentBytes h data)) :
    s.responses = ⟨.ok, BitVec.ofNat 32 (segmentBytes h data).length⟩ :: s.responses.tail := by
  have hresponse := hyielded.response
  rw [if_pos (hyielded.ckok.2 (trailerBytes_segmentBytes h data))] at hresponse
  exact List.eq_cons_of_mem_head? hresponse

/-- Settles O43: a build's hits are by definition what brings the header to `TARGET`, and `NONCE` is one; with the default
target the packet is a segment without data, whose fields read back. -/
theorem aBuiltPacketValidatesAsASegment : Obligations.ABuiltPacketValidatesAsASegment := by
  intro s a b hwf hset
  have hpacket := s.crcBytes_finishedPacket
  have hlength := s.buildPacket.length_finishedPacket
  refine ⟨_, execCpbuild_of_set hset, ?_⟩
  rw [State.finishedPacket_answer, Memory.map_read_range, State.answer_hdr]
  refine ⟨hlength, rfl, fun n hn => ?_, fun _ => hpacket, fun htarget => ⟨hpacket, ?_⟩⟩
  · rw [State.hitBit_answer, State.buildPacket_hitBit_iff] at hn
    rw [State.buildPacket_hdr]
    exact hn
  · rw [State.finishedPacket_eq_segmentBytes hwf htarget] at hlength ⊢
    obtain ⟨u, hrun, hyielded, htail⟩ := afterInputs_rdopen_rdnext a b hlength.ge (hlength.trans_le (by decide))
    have hresponses := hyielded.responses_eq
    rw [hlength, htail] at hresponses
    rw [hlength] at hrun
    have hslen : u.slen = BitVec.ofNat 11 18 := by
      rw [← BitVec.toNat_inj, ← u.length_segment, hyielded.segment, hlength]
      rfl
    obtain ⟨-, -, howner, htier, -⟩ := segmentFieldsReadBack u _ [] (Nat.zero_le _) hslen hyielded.segment
    exact ⟨u, hrun, hresponses, hyielded.segment, htier, howner⟩

end Sys2Proof.Machine
end

-- ==== The register read (`44_system.md`) ====
section
/-! `RDREG` answers the register map, and refuses the registers that hold nothing and the numbers that name none (R190,
R191). -/

namespace Sys2Proof.Machine

/-- A register of the map whose data is there is answered (R190). -/
theorem exec_rdreg_of_present {s : State} {r : Byte} {v : Word} (hv : s.readReg r = some v)
    (hseg : regNeedsSegment r = false ∨ s.flags.segv = true)
    (hhdr : regNeedsHeader r = false ∨ s.flags.hdrv = true) :
    exec (.rdreg r) s = .next (s.answer .ok v) := by
  rw [exec, execRdreg, hv]
  have hseg' : ¬(regNeedsSegment r = true ∧ s.flags.segv = false) := by grind
  have hhdr' : ¬(regNeedsHeader r = true ∧ s.flags.hdrv = false) := by grind
  exact (if_neg hseg').trans (if_neg hhdr')

/-- `FLAGS` is `{HDRV, CKOK, SEGV}` in bits 2, 1, 0 (R190). -/
theorem Flags.setWidth_bits (f : Flags) :
    f.bits.setWidth 32 =
      ((if f.segv then 1 else 0) + (if f.ckok then 2 else 0) + (if f.hdrv then 4 else 0) : Word) := by
  rcases f with ⟨_ | _, _ | _, _ | _⟩ <;> rfl

/-- The numbers of `SCRC` and the field views (R190). -/
theorem regNeedsSegment_of_toNat {r : Byte} (h : r.toNat = 0x0A ∨ (0x10 ≤ r.toNat ∧ r.toNat ≤ 0x19)) :
    regNeedsSegment r = true := by
  simpa [regNeedsSegment, BitVec.le_def, ← BitVec.toNat_inj] using h

/-- Settles O44: a register whose data is there is answered, absent data and unassigned numbers are refused. -/
theorem rdregReadsTheRegisterMap : Obligations.RdregReadsTheRegisterMap := by
  refine ⟨fun s => ⟨?_, fun hsegv => ?_, fun hhdrv => ?_⟩,
    fun s r => ⟨fun hsegv hr => ?_, fun hhdrv hr => ?_, fun hgap => ?_⟩,
    fun _ _ _ => rfl, wordRuns_op (.rdreg 0) fun _ => rfl⟩
  · have always {r : Byte} {v : Word} (hv : s.readReg r = some v) (hseg : regNeedsSegment r = false)
        (hhdr : regNeedsHeader r = false) : exec (.rdreg r) s = .next (s.answer .ok v) :=
      exec_rdreg_of_present hv (.inl hseg) (.inl hhdr)
    refine ⟨?_, ?_, ?_, ?_, ?_, ?_, (always rfl rfl rfl).trans ?rst, ?_, ?_, (always rfl rfl rfl).trans ?flags, ?_, ?_⟩
    case rst => cases s.rst <;> rfl
    case flags => rw [Flags.setWidth_bits]
    all_goals exact always rfl rfl rfl
  · refine ⟨?_, ?_, ?_, ?_, ?_, ?_, ?_, ?_, ?_, ?_, ?_⟩
    all_goals exact exec_rdreg_of_present rfl (.inr hsegv) (.inl rfl)
  · exact exec_rdreg_of_present rfl (.inl rfl) (.inr hhdrv)
  · exact execRdreg_of_absent (.inl ⟨regNeedsSegment_of_toNat hr, hsegv⟩)
  · obtain rfl : r = 0x22 := BitVec.eq_of_toNat_eq hr
    exact execRdreg_of_absent (r := 0x22) (.inr ⟨rfl, hhdrv⟩)
  · exact exec_of_not_wellFormed s (regAssigned_eq_false_of_gap hgap)

end Sys2Proof.Machine
end

-- ==== Refusals and terminal outcomes (`60_exceptions.md`) ====
section
/-! A refused command changes nothing but the list of responses, and a terminal outcome is `RDNEXT`'s alone and changes
the reader's status fields only (R216). -/

namespace Sys2Proof.Machine

/-! ### Three kinds of response codes (R201, R216) -/

/-- The codes of a command that is carried out. -/
def acceptedCodes : List Code := [.ok, .cksumMismatch]

/-- The codes of a refused command (R216). -/
def refusalCodes : List Code := [.errIllegalCmd, .errNoData, .errPrecondition, .errNotOpen]

/-- The codes a reader ends with (R122). -/
def terminalCodes : List Code := [.eos, .errTooLarge, .errTruncated, .errTooShort]

theorem not_mem_refusalCodes_of_accepted : ∀ c ∈ acceptedCodes, c ∉ refusalCodes := by decide

theorem not_mem_terminalCodes_of_accepted : ∀ c ∈ acceptedCodes, c ∉ terminalCodes := by decide

theorem not_mem_refusalCodes_of_terminal : ∀ c ∈ terminalCodes, c ∉ refusalCodes := by decide

theorem Code.ofMatch_mem_acceptedCodes (matched : Bool) : Code.ofMatch matched ∈ acceptedCodes := by
  cases matched <;> decide

theorem TerminalPair.mem_terminalCodes {r : Rst} {c : Code} (h : TerminalPair r c) : c ∈ terminalCodes := by
  rcases h with ⟨-, rfl⟩ | ⟨-, rfl⟩ | ⟨-, rfl⟩ | ⟨-, rfl⟩ <;> decide

/-! ### What each kind of answer leaves behind -/

/-- `Answered i s r t`: the operation `i`, run from `s`, gives the response `r` and leaves `t`. -/
inductive Answered : Instr → State → Response → State → Prop where
  /-- What a command that is neither refused nor at the reader's end leaves is not limited here; `Writes` says it. -/
  | accepted {i : Instr} {s u : State} {c : Code} (v : Word) (hc : c ∈ acceptedCodes) :
      Answered i s ⟨c, v⟩ (u.answer c v)
  | refused {i : Instr} {s : State} {c : Code} (hc : c ∈ refusalCodes) : Answered i s ⟨c, 0⟩ (s.answer c 0)
  /-- A reader that has ended repeats its code (R123). -/
  | repeated {s : State} {c : Code} (hp : TerminalPair s.rst c) : Answered .rdnext s ⟨c, 0⟩ (s.answer c 0)
  /-- A running reader ends, before the length prefix or after it (R122). -/
  | ended {s : State} {cur : Word} {r : Rst} {c : Code} (hp : TerminalPair r c)
      (hcur : cur = s.cur ∨ cur = s.cur + 2) : Answered .rdnext s ⟨c, 0⟩ (s.endedAt cur r c)

theorem answered_of_respond_ok {i : Instr} {s u t : State} {v : Word} (h : respond .ok v u = .next t) :
    ∃ r, Answered i s r t := by
  obtain rfl := (respond_eq_next ..).1 h
  exact ⟨_, .accepted v (by decide)⟩

theorem execRdnext_answered {s t : State} (h : execRdnext s = .next t) : ∃ r, Answered .rdnext s r t := by
  obtain ⟨-, rfl⟩ | ⟨c, hp, rfl⟩ | ⟨-, r, c, hp, rfl | ⟨-, rfl⟩⟩ | ⟨-, -, len, -, -, -, -, rfl⟩ := execRdnext_cases h
  · exact ⟨_, .refused (by decide)⟩
  · exact ⟨_, .repeated hp⟩
  · exact ⟨_, .ended hp (.inl rfl)⟩
  · exact ⟨_, .ended hp (.inr rfl)⟩
  · exact ⟨_, .accepted _ (Code.ofMatch_mem_acceptedCodes _)⟩

/-- Every operation answers in one of these ways. -/
theorem exec_answered {i : Instr} {s t : State} (h : exec i s = .next t) : ∃ r, Answered i s r t := by
  cases i with
  | rdnext => exact execRdnext_answered h
  | sgldb off =>
    obtain ⟨-, rfl⟩ | ⟨-, -, rfl⟩ := execSgldb_cases h
    · exact ⟨_, .refused (by decide)⟩
    · exact ⟨_, .accepted _ (by decide)⟩
  | cpbuild =>
    obtain ⟨-, rfl⟩ | ⟨-, rfl⟩ := execCpbuild_cases h
    · exact ⟨_, .refused (by decide)⟩
    · exact ⟨_, .accepted _ (by decide)⟩
  | cpldb off =>
    obtain ⟨-, rfl⟩ | ⟨-, rfl⟩ := execCpldb_cases h
    · exact ⟨_, .refused (by decide)⟩
    · exact ⟨_, .accepted _ (by decide)⟩
  | rdreg r =>
    obtain ⟨-, rfl⟩ | ⟨-, rfl⟩ | ⟨v, -, -, -, rfl⟩ := execRdreg_cases h
    · exact ⟨_, .refused (by decide)⟩
    · exact ⟨_, .refused (by decide)⟩
    · exact ⟨_, .accepted _ (by decide)⟩
  | _ => exact answered_of_respond_ok h

/-! ### The frame of a refusal and of a terminal outcome (R216) -/

theorem Answered.head?_responses {i : Instr} {s t : State} {r : Response} (h : Answered i s r t) :
    t.responses.head? = some r := by
  cases h <;> rfl

theorem Answered.eq_of_refusal {i : Instr} {s t : State} {r : Response} (h : Answered i s r t)
    (hr : r.code ∈ refusalCodes) : t = { s with responses := r :: s.responses } := by
  cases h with
  | accepted v hc => exact absurd hr (not_mem_refusalCodes_of_accepted _ hc)
  | refused | repeated => rfl
  | ended hp => exact absurd hr (not_mem_refusalCodes_of_terminal _ hp.mem_terminalCodes)

theorem Answered.eq_of_terminal {i : Instr} {s t : State} {r : Response} (h : Answered i s r t)
    (hr : r.code ∈ terminalCodes) :
    i = .rdnext ∧ r.val = 0 ∧
      (t = { s with responses := r :: s.responses } ∨ t = s.endedAt s.cur t.rst r.code ∨
        t = s.endedAt (s.cur + 2) t.rst r.code) := by
  cases h with
  | accepted v hc => exact absurd hr (not_mem_terminalCodes_of_accepted _ hc)
  | refused hc => exact absurd hc (not_mem_refusalCodes_of_terminal _ hr)
  | repeated => exact ⟨rfl, rfl, .inl rfl⟩
  | ended hp hcur =>
    obtain rfl | rfl := hcur
    · exact ⟨rfl, rfl, .inr (.inl rfl)⟩
    · exact ⟨rfl, rfl, .inr (.inr rfl)⟩

/-- Settles O55: the operation's one response says how it was answered, and so what it left. -/
theorem outcomesArePrecise : Obligations.OutcomesArePrecise := by
  intro i s t r hexec hresp
  obtain ⟨r', hans⟩ := exec_answered hexec
  obtain rfl : r = r' := by simpa [hresp] using hans.head?_responses
  exact ⟨hans.eq_of_refusal, hans.eq_of_terminal⟩

end Sys2Proof.Machine
end

-- ==== Wrong bits and reset (`70_reset_and_hazards.md`) ====
section
/-! A wrong received bit spoils three outputs of the descrambler (R244), and what a reset leaves (R230). -/

namespace Sys2Proof.Machine

/-! ### The descrambler's outputs from what it received (R153, R160) -/

/-- A run's output at a place is that of one step from the register the bits before it leave. -/
theorem getD_runBits_snd (f : ShiftReg → Bit → ShiftReg × Bit) (bits : List Bit) {j : Nat} (hj : j < bits.length) :
    ∀ s, (runBits f s bits).2.getD j 0 = (f (runBits f s (bits.take j)).1 (bits.getD j 0)).2 := by
  induction bits generalizing j with
  | nil => exact absurd hj j.not_lt_zero
  | cons b bits ih =>
    cases j with
    | zero => exact fun _ => rfl
    | succ j => exact fun s => ih (Nat.lt_of_succ_lt_succ hj) _

/-- The bit received `lag` places before place `j`; one from before the sequence stands in the start register `d`. -/
def receivedBefore (d : ShiftReg) (bits : List Bit) (j lag : Nat) : Bit :=
  if lag ≤ j then bits.getD (j - lag) 0 else tap d (lag - 1 - j)

theorem tap_runBits_dscStep_take (d : ShiftReg) (bits : List Bit) {j k : Nat} (hj : j < bits.length) (hk : k < 23) :
    tap (runBits dscStep d (bits.take j)).1 k = receivedBefore d bits j (k + 1) := by
  rw [runBits_dscStep_fst, tap_foldl_shiftIn _ _ hk, List.length_take_of_le hj.le, receivedBefore, Nat.add_sub_cancel]
  have hplace : j - 1 - k = j - (k + 1) := by omega
  simp only [Nat.add_one_le_iff, hplace]
  split
  · rw [List.getD_eq_getElem?_getD, List.getD_eq_getElem?_getD, List.getElem?_take_of_lt (by omega)]
  · rfl

/-- An output is the received bit, inverted, with those 3 and 20 places before it. -/
theorem getD_runBits_dscStep_snd (d : ShiftReg) (bits : List Bit) {j : Nat} (hj : j < bits.length) :
    (runBits dscStep d bits).2.getD j 0 =
      bits.getD j 0 ^^^ 1 ^^^ receivedBefore d bits j 3 ^^^ receivedBefore d bits j 20 := by
  rw [getD_runBits_snd dscStep bits hj, dscStep_snd, tap_runBits_dscStep_take d bits hj (by decide),
    tap_runBits_dscStep_take d bits hj (by decide)]

/-! ### One wrong bit (R244) -/

/-- The error in a bit that is wrong under a condition. -/
def errorIf (p : Prop) [Decidable p] : Bit := if p then 1 else 0

theorem xor_errorIf_of_not {p : Prop} [Decidable p] (hp : ¬p) (b : Bit) : b ^^^ errorIf p = b := by
  rw [errorIf, if_neg hp]
  exact BitVec.xor_zero

theorem errorIf_xor_ne_zero_iff {p q r : Prop} [Decidable p] [Decidable q] [Decidable r] (hpq : p → ¬q)
    (hpr : p → ¬r) (hqr : q → ¬r) : errorIf p ^^^ errorIf q ^^^ errorIf r ≠ 0 ↔ p ∨ q ∨ r := by
  by_cases hp : p
  · simp [errorIf, hp, hpq hp, hpr hp]
  · by_cases hq : q
    · simp [errorIf, hp, hq, hqr hq]
    · simp [errorIf, hp, hq]

theorem getD_append_flip_cons (before after : List Bit) (b : Bit) (i : Nat) :
    (before ++ (b ^^^ 1) :: after).getD i 0 = (before ++ b :: after).getD i 0 ^^^ errorIf (i = before.length) := by
  rcases lt_trichotomy i before.length with hlt | rfl | hgt
  · rw [xor_errorIf_of_not hlt.ne, List.getD_append _ _ _ _ hlt, List.getD_append _ _ _ _ hlt]
  · simp [errorIf]
  · obtain ⟨k, rfl⟩ := Nat.exists_eq_add_of_lt hgt
    rw [xor_errorIf_of_not hgt.ne', List.getD_append_right _ _ _ _ hgt.le, List.getD_append_right _ _ _ _ hgt.le,
      Nat.add_assoc, Nat.add_sub_cancel_left, List.getD_cons_succ, List.getD_cons_succ]

theorem receivedBefore_append_flip_cons (d : ShiftReg) (before after : List Bit) (b : Bit) (j lag : Nat) :
    receivedBefore d (before ++ (b ^^^ 1) :: after) j lag =
      receivedBefore d (before ++ b :: after) j lag ^^^ errorIf (j = before.length + lag) := by
  rw [receivedBefore, receivedBefore]
  split
  · have hplace : j - lag = before.length ↔ j = before.length + lag := by omega
    simp only [getD_append_flip_cons, hplace]
  · rw [xor_errorIf_of_not (by omega)]

/-- Settles O27: an output adds the received bits at its place, 3 before and 20 before, and the wrong bit is at most one
of the three. -/
theorem oneWrongBitSpoilsThree : Obligations.OneWrongBitSpoilsThree := by
  intro d before after b j hj
  have hlen (c : Bit) : j < (before ++ c :: after).length := by
    rw [List.length_append, List.length_cons]
    omega
  rw [getD_runBits_dscStep_snd d _ (hlen _), getD_runBits_dscStep_snd d _ (hlen _), getD_append_flip_cons,
    receivedBefore_append_flip_cons, receivedBefore_append_flip_cons]
  generalize (before ++ b :: after).getD j 0 = x, receivedBefore d _ j 3 = y, receivedBefore d _ j 20 = z
  have herror : ∀ x y z e f g : Bit,
      x ^^^ 1 ^^^ y ^^^ z ≠ (x ^^^ e) ^^^ 1 ^^^ (y ^^^ f) ^^^ (z ^^^ g) ↔ e ^^^ f ^^^ g ≠ 0 := by decide
  rw [herror, errorIf_xor_ne_zero_iff (by omega) (by omega) (by omega)]

/-! ### Reset and idle steps (R230, R217) -/

/-- Settles O47: a step on a reset input is the reset event, an idle step keeps the state. -/
theorem resetAndIdleSteps : Obligations.ResetAndIdleSteps :=
  ⟨fun _ _ hin => ⟨_, step_reset hin, by simp [State.hitBit]⟩, fun _ hin => step_idle hin⟩

end Sys2Proof.Machine
end
